-- ==== Sys2Proof/Word.lean ====
section
/-!
DEFINITION. The plainest types of the model: the byte, a frame as its bytes, and a timer.
-/
namespace Sys2Proof

/-- A byte of a frame, a table or the sample memory. -/
abbrev Byte := BitVec 8

/-- A frame as the line carries it, byte 0 first, Check last (R2): 4 to 20 bytes. -/
abbrev Frame := List Byte

/-- A timer: `none` is STOPPED; `some n` is RUNNING, started with a length of `n` microseconds.
The model has no clock; the expiry reaches it as a command (notes/assumptions/2). -/
abbrev Timer := Option Nat

end Sys2Proof
end

