-- ==== Sys2Proof/Syntax.lean ====
section
/-!
DEFINITION. The commands: one constructor for each row of spec/opcode_table.json. A command of a frame kind takes its
operands from the frame at the head of the inbound queue (R20); the operands written here are what an event brings
from outside the part.
-/
namespace Sys2Proof

/-- A supply with a presence comparator (R182). -/
inductive Supply where
  | track
  | battery
  deriving DecidableEq, Repr

/-- A supply and the voltage at its presence comparator, as the code that the converter reads for it (R182). -/
structure SupplyVoltage where
  source : Supply
  voltage : BitVec 12
  deriving DecidableEq, Repr

/-- The commands and events that reach the part, one constructor for each row of the table, in the table's order. -/
inductive Instr where
  /-- R6: a whole character arrives on CMD_RX, with its eight data bits and its marker. -/
  | characterReceived (byte : Byte) (marker : Bool)
  /-- R8: a character whose stop bit is at the wrong level. -/
  | brokenCharacter
  /-- R7: the inter-byte timer expires. -/
  | interByteTimerExpiry
  /-- R20: DSP takes a head frame of Kind 13 to 15. -/
  | replyFrameTaken
  /-- R86: DSP takes a head frame of Kind 0. -/
  | drive
  /-- R25: DSP takes a head frame of Kind 1 that is not a well-formed EMERGENCY. -/
  | haltNormal
  /-- R88: DSP takes a head frame of Kind 1 that is not a well-formed NORMAL. -/
  | haltEmergency
  /-- R56: DSP takes a head frame of Kind 2. -/
  | func
  /-- R34: DSP takes a head frame of Kind 3. -/
  | statusReq
  /-- R40: DSP takes a head frame of Kind 4. -/
  | cfgOpen
  /-- R41: DSP takes a head frame of Kind 6. -/
  | cfgPoint
  /-- R42: DSP takes a head frame of Kind 5. -/
  | cfgWrite
  /-- R43: DSP takes a head frame of Kind 7. -/
  | cfgRead
  /-- R45: DSP takes a head frame of Kind 8. -/
  | cfgCommit
  /-- R44: DSP takes a head frame of Kind 9. -/
  | cfgClose
  /-- R52: the nonvolatile write in flight completes. -/
  | nvWriteComplete
  /-- R146: DSP takes a head frame of Kind 10. -/
  | sampleErase
  /-- R147: DSP takes a head frame of Kind 11. -/
  | sampleWrite
  /-- R146: the sector erase in flight completes. -/
  | eraseComplete
  /-- R147: the program in flight completes. -/
  | programComplete
  /-- R33: DSP takes a head frame of Kind 12 that is not a well-formed FACTORY. -/
  | resetNormal
  /-- R33: DSP takes a head frame of Kind 12 that is not a well-formed NORMAL. -/
  | resetFactory
  /-- R54: the writing of the six default tables completes. -/
  | factoryRestoreComplete
  /-- R190: the rail rises from below the state-keeping level; `written` is how many tables a factory restore that
  this cuts short had written whole. -/
  | powerOnReset (written : Fin 6)
  /-- R190: the brownout comparator acts; `written` as for `powerOnReset`. -/
  | brownoutReset (written : Fin 6)
  /-- R191: the reset is released. -/
  | resetRelease
  /-- R13: the last byte of the head reply frame has been sent on REPLY_TX. -/
  | replyFrameSent
  /-- R15: the last byte of the head relay frame has been sent on TRAIN_TX. -/
  | relayFrameSent
  /-- R29: the command-loss timer expires. -/
  | commandLossTimerExpiry
  /-- R73: a ramp tick. -/
  | rampTick
  /-- R78: the back-EMF timer expires. -/
  | bemfTimerExpiry
  /-- R95: the stall timer expires. -/
  | stallTimerExpiry
  /-- R102: a PWM period ends. -/
  | pwmPeriodEnd
  /-- R106: the settle timer expires. -/
  | settleTimerExpiry
  /-- R109: the bridge current reaches `milliamps`. -/
  | overcurrentTrip (milliamps : Nat)
  /-- R113: the retry timer expires. -/
  | retryTimerExpiry
  /-- R114: the trip-free timer expires. -/
  | tripFreeTimerExpiry
  /-- R119: the running conversion completes with a code from 0 to 4095. -/
  | conversionComplete (code : BitVec 12)
  /-- R129: the scan timer expires. -/
  | scanTimerExpiry
  /-- R133: a cam tick. -/
  | camTick
  /-- R137: a cam tick at which the silence watch has elapsed. -/
  | silenceWatchElapsed
  /-- R139: a cam tick at which the accumulator wraps. -/
  | virtualChuff
  /-- R134: a rising edge on CAM_IN, `offset` microseconds after the last cam tick. -/
  | camEdge (offset : Nat)
  /-- R161: an output sample; bit v of `inTime` says that the sample of voice v has been read in time (R145). -/
  | outputSample (inTime : BitVec 6)
  /-- R168: the request timer of the smoke controller expires. -/
  | smokeRequestTimerExpiry
  /-- R168: the age timer expires. -/
  | ageTimerExpiry
  /-- R172: the puff timer expires. -/
  | puffTimerExpiry
  /-- R176: the flicker generator advances. -/
  | flickerAdvance
  /-- R177: the blink timer of an output expires. -/
  | blinkTimerExpiry (output : Fin 8)
  /-- R178: the soft timer of an output expires. -/
  | softTimerExpiry (output : Fin 8)
  /-- R182: a presence comparator reads present. -/
  | presenceGained (supply : SupplyVoltage)
  /-- R182: a presence comparator reads not present. -/
  | presenceLost (supply : SupplyVoltage)
  /-- R182: a qualification timer expires. -/
  | qualificationTimerExpiry (supply : Supply)
  /-- R186: the coast timer expires. -/
  | coastTimerExpiry
  /-- R186: the buffer request timer expires. -/
  | bufferRequestTimerExpiry
  /-- R187: the over timer expires. -/
  | overTimerExpiry
  /-- R187: the under timer expires. -/
  | underTimerExpiry
  deriving DecidableEq, Repr

end Sys2Proof
end

