-- ==== Sys2Proof/Decode.lean ====
section
/-!
DEFINITION. Decoding. No row of spec/opcode_table.json has bits (every `fields` is empty and none has `fixed`), since the
commands are frames, timers and pins, not words; so no word spells a command. The layout of a frame, which does have
bits, is read in Machine/Operands.lean.
-/
namespace Sys2Proof

/-- The command that a word spells by the bits of the table: none. -/
def decodeTableWord (_nbits _w : Nat) : Option Instr := none

end Sys2Proof
end

