-- ==== Sys2Proof/Config.lean ====
section
/-!
DEFINITION. The free values: what the manual leaves open, and the times that a model without a clock does not know. They have no body, so nothing can be proved of their value.
-/
namespace Sys2Proof

/-- FREE VALUE (notes/assumptions/5). The bits by which the k-th byte of an interrupted erase or program differs from
what it would otherwise be: R148 says only that some of the bits have moved. `k` counts the bytes ever left open
(the field `free` of the state), so each such byte is open on its own. -/
opaque Config.interruptedBits : Nat → Byte

/-- FREE VALUE (notes/assumptions/19). The time that passes before the n-th at-once demand of a PWM period, in nanoseconds
from the one before it, before it is brought within the period: the model has no clock. `period` is the ordinal number of
the period. -/
opaque Config.timePassed : (period n : Nat) → Nat

end Sys2Proof
end

