-- ==== Sys2Proof/Machine/Bits.lean ====
section
/-!
DEFINITION. Reading and writing fields of byte lists, byte sums, and the limits used by the arithmetic of the chapters.
-/
namespace Sys2Proof.Machine

/-- The byte at index `i`, as a number; 0 beyond the end. -/
def byteAt (b : List Byte) (i : Nat) : Nat := (b.getD i 0).toNat

/-- A two-byte field, most significant byte first (section 0.7, Bytes and frames). -/
def word16At (b : List Byte) (i : Nat) : Nat := byteAt b i * 256 + byteAt b (i + 1)

/-- A three-byte field, most significant byte first. -/
def word24At (b : List Byte) (i : Nat) : Nat := word16At b i * 256 + byteAt b (i + 2)

/-- Bit `n` of the byte at index `i`. -/
def bitAt (b : List Byte) (i n : Nat) : Bool := (b.getD i 0).getLsbD n

/-- The `width` bits of the byte at index `i` from bit `lo` upwards, as a number. -/
def fieldAt (b : List Byte) (i lo width : Nat) : Nat := byteAt b i / 2 ^ lo % 2 ^ width

/-- `n` bytes from index `i` onwards. -/
def slice (b : List Byte) (i n : Nat) : List Byte := (b.drop i).take n

/-- `b` with the bytes of `new` put in from index `i` onwards. -/
def splice (b : List Byte) (i : Nat) (new : List Byte) : List Byte :=
  b.take i ++ new ++ b.drop (i + new.length)

/-- The low eight bits of a number. -/
def toByte (n : Nat) : Byte := BitVec.ofNat 8 n

/-- A number as two bytes, most significant byte first. -/
def bytes16 (n : Nat) : List Byte := [toByte (n / 256), toByte n]

/-- The sum of the bytes, each taken as 0 to 255. -/
def sumBytes : List Byte → Nat
  | [] => 0
  | x :: xs => x.toNat + sumBytes xs

/-- The byte that brings the sum of `b` and itself to 0 modulo 256 (R3). -/
def checkByte (b : List Byte) : Byte := toByte (256 - sumBytes b % 256)

/-- A number limited to the interval from `lo` to `hi` (section 0.7, Rounding). -/
def clampNat (x lo hi : Nat) : Nat := if x < lo then lo else if hi < x then hi else x

/-- A whole number limited to the interval from `lo` to `hi`, both not negative. -/
def clampInt (x : Int) (lo hi : Nat) : Nat :=
  if x < lo then lo else if hi < x then hi else x.toNat

/-- A whole number limited to the signed 16-bit interval (R161). -/
def clampSigned16 (x : Int) : Int := if x < -32768 then -32768 else if 32767 < x then 32767 else x

/-- Replaces the entry at index `i` of a list; a list too short is left as it is. -/
def setAt {α : Type} (l : List α) (i : Nat) (x : α) : List α := l.set i x

end Sys2Proof.Machine
end

