-- ==== Sys2Proof/Machine/Memory.lean ====
section
/-!
DEFINITION. The sample memory (R145) as a list of cells in canonical form: rising addresses, and no cell that holds what
an unlisted address reads as, 0xFF. The content before anything is written is a DESIGN CHOICE (notes/assumptions/4).
-/
namespace Sys2Proof.Machine

/-- What a byte of the sample memory that no cell lists reads as: an erased byte. -/
def erasedByte : Byte := 0xFF

/-- The byte at an address. -/
def readCell (m : List Host.Cell) (a : Nat) : Byte :=
  match m with
  | [] => erasedByte
  | c :: rest => if c.1 = a then c.2 else readCell rest a

/-- A cell put in its place; a byte that reads as erased is not listed. -/
def writeCell (m : List Host.Cell) (a : Nat) (v : Byte) : List Host.Cell :=
  match m with
  | [] => if v = erasedByte then [] else [(a, v)]
  | c :: rest =>
    if c.1 < a then c :: writeCell rest a v
    else if c.1 = a then (if v = erasedByte then rest else (a, v) :: rest)
    else if v = erasedByte then c :: rest else (a, v) :: c :: rest

/-- The canonical form, above a bound: addresses rise strictly from there and no cell reads as erased. -/
def cellsAbove (lo : Nat) (m : List Host.Cell) : Bool :=
  match m with
  | [] => true
  | c :: rest => decide (lo ≤ c.1) && c.2 ≠ erasedByte && cellsAbove (c.1 + 1) rest

/-- The canonical form, inside the 16 MiB of the device (R145). -/
def memoryWf (m : List Host.Cell) : Bool := cellsAbove 0 m && m.all (fun c => decide (c.1 < 16777216))

/-- Bytes programmed from an address onwards: each becomes the AND of its old value and the data byte (R147). -/
def programBytes (m : List Host.Cell) (a : Nat) (data : List Byte) : List Host.Cell :=
  match data with
  | [] => m
  | d :: rest => programBytes (writeCell m a (readCell m a &&& d)) (a + 1) rest

/-- The address lies in the sector. -/
def inSector (sector a : Nat) : Bool := 4096 * sector ≤ a && a < 4096 * sector + 4096

/-- The sector erased: its 4,096 bytes read 0xFF (R146). -/
def eraseSector (m : List Host.Cell) (sector : Nat) : List Host.Cell := m.filter (fun c => !inSector sector c.1)

/-- A cell of a sector whose erase is cut short: its old value with some bits set, which ones is open (R148). A cell that
then reads as erased is not listed. -/
def cellCutShort (sector k : Nat) (c : Host.Cell) : Option Host.Cell :=
  let v := c.2 ||| Config.interruptedBits (k + (c.1 - 4096 * sector))
  if v = erasedByte then none else some (c.1, v)

/-- An erase of a sector cut short (R148): a byte that no cell lists reads as erased already. `k` numbers the open
bytes. -/
def eraseCutShort (m : List Host.Cell) (sector k : Nat) : List Host.Cell :=
  m.filterMap (fun c => if inSector sector c.1 then cellCutShort sector k c else some c)

/-- A program cut short: each byte is its old value with some of the bits cleared that the AND clears (R148). -/
def programCutShort (m : List Host.Cell) (a : Nat) (data : List Byte) (k : Nat) : List Host.Cell :=
  match data with
  | [] => m
  | d :: rest =>
    programCutShort (writeCell m a (readCell m a &&& (d ||| Config.interruptedBits k))) (a + 1) rest (k + 1)

/-- Sample `n` of a run of samples that starts at byte address `a`: two bytes, low byte first, two's complement
(R145). -/
def sampleAt (m : List Host.Cell) (a n : Nat) : Int :=
  (readCell m (a + 2 * n + 1) ++ readCell m (a + 2 * n)).toInt

end Sys2Proof.Machine
end

