-- ==== Sys2Proof/Machine/Defaults.lean ====
section
/-!
DEFINITION. The tables as bytes: their sizes (Table 3-1), the layout of SETTINGS (Table 3-9) and the defaults of every
table (Table 3-4, R68).
-/
namespace Sys2Proof.Machine

/-- The editable tables, ids 0 to 5 (Table 3-1). IDENTITY, id 6, is fixed by the part and is never opened. -/
inductive TableId where
  | settings
  | address
  | speed
  | map
  | cues
  | lamps
  deriving DecidableEq, Repr

/-- The editable table with an id from 0 to 5. -/
def tableOfId (n : Nat) : Option TableId :=
  match n with
  | 0 => some .settings
  | 1 => some .address
  | 2 => some .speed
  | 3 => some .map
  | 4 => some .cues
  | 5 => some .lamps
  | _ => none

/-- The size of a table in bytes (Table 3-1). -/
def tableSize (t : TableId) : Nat :=
  match t with
  | .settings => 64
  | .address => 48
  | .speed => 34
  | .map => 128
  | .cues => 1024
  | .lamps => 32

/-- IDENTITY: vendor code 0x2E, part code 3120, revision 1 (section 3.8). -/
def identityBytes : List Byte := [0x2E, 0x0C, 0x30, 1]

/-- One row of Table 3-9: the offset of a setting, its width in bytes, its range and its default. -/
structure SettingRow where
  offset : Nat
  width : Nat
  lowest : Nat
  highest : Nat
  default : Nat
  deriving DecidableEq, Repr

/-- Table 3-9, the settings of TRC. -/
def settingRowsTraction : List SettingRow :=
  [⟨0, 1, 0, 255, 16⟩, ⟨1, 1, 0, 255, 16⟩, ⟨2, 1, 1, 255, 64⟩, ⟨3, 1, 0, 1, 1⟩, ⟨4, 1, 0, 255, 32⟩,
   ⟨5, 1, 0, 255, 8⟩, ⟨6, 1, 5, 40, 10⟩, ⟨7, 2, 1, 1023, 256⟩, ⟨9, 1, 1, 255, 64⟩, ⟨10, 1, 0, 254, 32⟩,
   ⟨11, 2, 0, 1023, 900⟩, ⟨13, 2, 0, 1023, 20⟩, ⟨15, 1, 5, 50, 20⟩]

/-- Table 3-9, the settings of MBR, DSP, MSQ and CAM. -/
def settingRowsMotion : List SettingRow :=
  [⟨16, 1, 0, 2, 1⟩, ⟨17, 1, 1, 10, 3⟩, ⟨18, 1, 1, 160, 120⟩, ⟨19, 2, 0, 4095, 3800⟩, ⟨21, 1, 0, 1, 0⟩,
   ⟨22, 1, 0, 255, 20⟩, ⟨23, 1, 0, 1, 0⟩, ⟨24, 1, 0, 255, 0xBD⟩, ⟨25, 1, 2, 100, 10⟩,
   ⟨26, 1, 0, 1, 1⟩, ⟨27, 1, 1, 8, 4⟩, ⟨28, 1, 1, 255, 32⟩, ⟨29, 1, 1, 20, 2⟩]

/-- Table 3-9, the settings of SND and SMK, with SMK_MAX. -/
def settingRowsSoundSmoke : List SettingRow :=
  [⟨30, 1, 0, 255, 192⟩, ⟨31, 1, 0, 63, 0⟩, ⟨32, 1, 0, 63, 8⟩, ⟨33, 1, 0, 63, 9⟩, ⟨34, 1, 0, 255, 128⟩,
   ⟨35, 2, 0, 4094, 2600⟩, ⟨37, 2, 0, 1023, 100⟩, ⟨39, 1, 0, 255, 16⟩, ⟨40, 1, 0, 255, 230⟩,
   ⟨41, 2, 1, 4095, 3300⟩, ⟨43, 1, 0, 255, 40⟩, ⟨44, 1, 0, 255, 200⟩, ⟨45, 1, 3, 30, 8⟩]

/-- Table 3-9, the settings of PPM. -/
def settingRowsPower : List SettingRow :=
  [⟨46, 1, 0, 1, 0⟩, ⟨47, 1, 0, 255, 80⟩, ⟨48, 1, 0, 255, 60⟩, ⟨49, 2, 0, 4095, 3000⟩, ⟨51, 2, 0, 4095, 2400⟩,
   ⟨53, 1, 1, 255, 30⟩, ⟨54, 2, 0, 1023, 700⟩, ⟨56, 1, 0, 255, 96⟩, ⟨57, 2, 0, 4095, 1400⟩,
   ⟨59, 2, 0, 4095, 3500⟩]

/-- Table 3-9 whole. -/
def settingRows : List SettingRow :=
  settingRowsTraction ++ settingRowsMotion ++ settingRowsSoundSmoke ++ settingRowsPower

/-- The value a row's setting holds in a SETTINGS image; two-byte settings are read most significant byte first. -/
def settingValue (b : List Byte) (r : SettingRow) : Nat :=
  if r.width = 2 then word16At b r.offset else byteAt b r.offset

/-- A SETTINGS image with a row's setting given a value. -/
def putSetting (b : List Byte) (r : SettingRow) (v : Nat) : List Byte :=
  splice b r.offset (if r.width = 2 then bytes16 v else [toByte v])

/-- The default SETTINGS image: the defaults of Table 3-9, and 0 in the bytes that hold no setting. -/
def defaultSettings : List Byte :=
  settingRows.foldl (fun b r => putSetting b r r.default) (List.replicate 64 0)

/-- The default ADDRESS image (R19): entry 0 valid, PRIMARY, Address 3, Mask 0, Window 0 to 63; the rest not valid. -/
def defaultAddress : List Byte := [0x80, 3, 0, 0, 0, 63] ++ List.replicate 42 0

/-- The default SPEED image: A[i] = 64 × i for i from 0 to 15, and A[16] = 1023. -/
def defaultSpeed : List Byte := (List.range 16).flatMap (fun i => bytes16 (64 * i)) ++ bytes16 1023

/-- The default MAP image (R68, Table 4-2); the bytes of entries 11 to 31 are all 0. -/
def defaultMap : List Byte :=
  [0x80, 0x40, 0, 0,  0x80, 0x80, 1, 0,  0x81, 1, 16, 0,  0x82, 1, 17, 0,  0x83, 2, 0, 0,  0x84, 0, 2, 1,
   0x85, 4, 0, 0,  0x86, 5, 0, 0,  0x88, 3, 0, 0,  0xC4, 1, 20, 0,  0xC6, 1, 21, 0] ++ List.replicate 84 0

/-- The default CUES image: every byte 0, so every cue is empty. -/
def defaultCues : List Byte := List.replicate 1024 0

/-- The default LAMPS image: brightness 63, blink half-period 50, soft step time 10, in each record. -/
def defaultLamps : List Byte := (List.replicate 8 [63, 50, 10, 0]).flatten

/-- The default image of a table (Table 3-4). -/
def defaultTable (t : TableId) : List Byte :=
  match t with
  | .settings => defaultSettings
  | .address => defaultAddress
  | .speed => defaultSpeed
  | .map => defaultMap
  | .cues => defaultCues
  | .lamps => defaultLamps

end Sys2Proof.Machine
end

