-- ==== Sys2Proof/Machine/Types.lean ====
section
/-!
DEFINITION. The state of each block as plain data, one structure a block, in the order of Table 0-1.
-/
namespace Sys2Proof.Machine

/-- One value for each editable table. -/
structure PerTable (α : Type) where
  settings : α
  address : α
  speed : α
  map : α
  cues : α
  lamps : α
  deriving DecidableEq, Repr

/-- A direction, stated or driven. -/
inductive Dir where
  | fwd
  | rev
  deriving DecidableEq, Repr

/-- The power states (Table 11-1). -/
inductive PowerState where
  | init
  | normal
  | coast
  | hold
  deriving DecidableEq, Repr

/-- CLI: the frame the receive assembler is COLLECTING. -/
structure Assembly where
  /-- the bytes received so far, byte 0 first -/
  bytes : List Byte
  /-- the number of bytes the frame will have, once its Length byte has arrived -/
  total : Option Nat
  deriving DecidableEq, Repr

/-- The Command Link Interface (chapter 1). -/
structure Cli where
  /-- `none` is IDLE, otherwise COLLECTING -/
  assembler : Option Assembly
  interByte : Timer
  /-- the inbound frame queue, head first -/
  inbound : List Frame
  /-- CMD_HOLD asserted -/
  hold : Bool
  /-- the reply queue, head first -/
  replies : List Frame
  /-- the REPLY_TX sender is sending the head reply -/
  replySending : Bool
  /-- the relay queue, head first -/
  relays : List Frame
  /-- the TRAIN_TX sender is sending the head copy -/
  relaySending : Bool
  truncated : Bool
  frameDropped : Bool
  replyDropped : Bool
  relayDisplaced : Bool
  /-- the check-error count -/
  checkErrors : Nat
  deriving DecidableEq, Repr

/-- The Frame Dispatcher (chapter 2). -/
structure Dsp where
  /-- the command-loss timer -/
  lossTimer : Timer
  /-- SIGNAL_LOST, condition C4 -/
  signalLost : Bool
  deriving DecidableEq, Repr

/-- The stored image of a table in nonvolatile memory (R52). -/
structure Image where
  bytes : List Byte
  check : Nat
  /-- the write-in-progress mark -/
  mark : Bool
  deriving DecidableEq, Repr

/-- The Table Store (chapter 3), but for the nonvolatile store, which outlives a reset. -/
structure Tbs where
  /-- the active copies -/
  active : PerTable (List Byte)
  openTable : Option TableId
  /-- the edit buffer, 1,024 bytes -/
  edit : List Byte
  pointer : Nat
  /-- the write state: `none` is IDLE, otherwise WRITING that table -/
  writing : Option TableId
  /-- TABLE_DEFAULTED -/
  defaulted : Bool
  deriving DecidableEq, Repr

/-- The condition bits C0 to C7 (Table 4-1). -/
structure Conditions where
  moving : Bool
  accelerating : Bool
  decelerating : Bool
  loaded : Bool
  signalLost : Bool
  coasting : Bool
  stalled : Bool
  smokeReady : Bool
  deriving DecidableEq, Repr

/-- The five conditions that TRC owns (R98). -/
structure TractionConditions where
  moving : Bool
  accelerating : Bool
  decelerating : Bool
  loaded : Bool
  stalled : Bool
  deriving DecidableEq, Repr

/-- The effect of a lamp demand (R63). -/
inductive Effect where
  | steady
  | flicker
  | blink
  | soft
  deriving DecidableEq, Repr

/-- A lamp demand that is on. -/
structure LampDemand where
  effect : Effect
  dim : Bool
  deriving DecidableEq, Repr

/-- The levels FNU last delivered to its targets (section 4.4). -/
structure Outputs where
  /-- the demand of each output 0 to 7; `none` is off -/
  lamps : List (Option LampDemand)
  smoke : Bool
  mute : Bool
  shunt : Bool
  momentumOff : Bool
  deriving DecidableEq, Repr

/-- A publication to FNU that FNU has not yet taken (R57, R58, R60). -/
inductive Publication where
  | traction (c : TractionConditions) (d : Dir)
  | signalLost (on : Bool)
  | coasting (on : Bool)
  | smokeReady (on : Bool)
  deriving DecidableEq, Repr

/-- The Function Unit (chapter 4). -/
structure Fnu where
  /-- the states of F0 to F63, bit n for function n -/
  functions : BitVec 64
  /-- FNU's copies of the condition bits -/
  conditions : Conditions
  /-- FNU's copy of the drive direction -/
  drive : Dir
  /-- whether each of the 32 entries was active at the end of the last evaluation -/
  activity : List Bool
  /-- the levels last delivered -/
  delivered : Outputs
  /-- publications waiting for FNU, oldest first -/
  waiting : List Publication
  deriving DecidableEq, Repr

/-- The traction states (Table 5-3). -/
inductive Traction where
  | idle
  | running
  | reversing
  | failsafe
  | emergency
  | tripped
  | lockout
  | stalled
  | suspended
  deriving DecidableEq, Repr

/-- The Traction Controller (chapter 5). -/
structure Trc where
  step : Nat
  /-- the stated direction -/
  stated : Dir
  /-- T -/
  target : Nat
  /-- V, in ramp fractions -/
  ramp : Nat
  /-- the drive direction -/
  drive : Dir
  armed : Bool
  /-- I -/
  integral : Nat
  /-- D -/
  duty : Nat
  /-- S -/
  speed : Nat
  /-- L -/
  load : Nat
  /-- LOADED, C3, as R83 works it out -/
  loaded : Bool
  state : Traction
  dcap : Nat
  shunt : Bool
  momentumOff : Bool
  bemfTimer : Timer
  /-- a back-EMF request is with MSQ and not yet answered -/
  outstanding : Bool
  stallTimer : Timer
  /-- the conditions last published to FNU -/
  published : TractionConditions
  deriving DecidableEq, Repr

/-- The modes TRC demands of MBR (R84). -/
inductive Mode where
  | off
  | emergencyStop
  | drive
  deriving DecidableEq, Repr

/-- The bridge states (R101). -/
inductive Bridge where
  | off
  | drive
  | brake
  | gap
  | tripped
  deriving DecidableEq, Repr

/-- The gap phases (chapter 6). -/
inductive GapPhase where
  | noGap
  | pending
  | settling
  | ready
  deriving DecidableEq, Repr

/-- The PWM period now running. -/
structure PwmPeriod where
  /-- its ordinal number since the reset, which stands for its start time -/
  ordinal : Nat
  /-- its length in nanoseconds -/
  length : Nat
  /-- the time past, in nanoseconds, at the last at-once demand taken in it; 0 before one -/
  past : Nat
  /-- how many at-once demands it has taken -/
  demands : Nat
  /-- an at-once demand has opened the high side, which stays open until the next period start (R102) -/
  opened : Bool
  deriving DecidableEq, Repr

/-- What the conversion of MOTOR_I now running has sampled at its start (R117, R110). -/
inductive MotorSample where
  /-- what the current sense still shows: no hold has begun or ended since -/
  | present
  /-- something that no other conversion reads: a hold has begun or ended since -/
  | own
  /-- the code held by a hold that has ended since -/
  | held (code : BitVec 12)
  deriving DecidableEq, Repr

/-- The Motor Bridge (chapter 6). -/
structure Mbr where
  bridge : Bridge
  mode : Mode
  /-- the demanded duty -/
  demanded : Nat
  drive : Dir
  /-- the applied duty -/
  applied : Nat
  period : Option PwmPeriod
  /-- the number of PWM periods started since the reset -/
  periods : Nat
  gap : GapPhase
  settleTimer : Timer
  /-- the injected measurement is AWAITED -/
  awaited : Bool
  retryTimer : Timer
  overloads : Nat
  tripFreeTimer : Timer
  /-- the level the comparator keeps since the last entry to DRIVE, in units of 50 mA -/
  tripLevel : Nat
  /-- the current sense holds the highest current since the trip -/
  currentHold : Bool
  /-- the code of the current held, once a conversion has read it -/
  heldCode : Option (BitVec 12)
  /-- what the running conversion of MOTOR_I has sampled -/
  sample : MotorSample
  lockoutShort : Bool
  deriving DecidableEq, Repr

/-- The converter channels (Table 7-1). -/
inductive Channel where
  | motorI
  | bemf
  | trackV
  | batteryV
  | bufferV
  | supplyI
  | smokeT
  | boardT
  deriving DecidableEq, Repr

/-- The request sources of the arbiter (R118). -/
inductive Source where
  | inject
  | gap
  | queue
  | scan
  deriving DecidableEq, Repr

/-- Who asked for a conversion; `scan` is no requester. -/
inductive Requester where
  | mbr
  | trc
  | smk
  | ppm
  | scan
  deriving DecidableEq, Repr

/-- The conversion that is running (R117). -/
structure Conversion where
  channel : Channel
  source : Source
  requester : Requester
  void : Bool
  deriving DecidableEq, Repr

/-- A record of the request queue. -/
structure Request where
  channel : Channel
  requester : Requester
  deriving DecidableEq, Repr

/-- A record of the inject slot. -/
structure Inject where
  channel : Channel
  requester : Requester
  cancel : Bool
  deriving DecidableEq, Repr

/-- The inject slot (section 7.4). -/
inductive Slot where
  | empty
  | waiting (r : Inject)
  | converting (r : Inject)
  deriving DecidableEq, Repr

/-- The gap source (section 7.5). -/
inductive GapSource where
  | noRequest
  | offered
  | pending
  | converting
  deriving DecidableEq, Repr

/-- The Measurement Sequencer (chapter 7). -/
structure Msq where
  /-- `none` is IDLE, otherwise CONVERTING -/
  converting : Option Conversion
  slot : Slot
  gap : GapSource
  /-- the request queue, oldest first -/
  queue : List Request
  scanTimer : Timer
  /-- the channels still to convert; the pass is IDLE when there is none -/
  pass : List Channel
  /-- the result table, one code for each channel 0 to 7 -/
  results : List Nat
  deriving DecidableEq, Repr

/-- The qualification of the wheel sensor. -/
inductive Qualification where
  | unqualified
  | qualifying (count : Nat)
  | qualified
  deriving DecidableEq, Repr

/-- Where chuff events come from. -/
inductive CamSource where
  | virtual
  | sensor
  deriving DecidableEq, Repr

/-- The Cam Unit (chapter 8). -/
structure Cam where
  /-- the time of the last cam tick, in microseconds since the release of the reset -/
  time : Nat
  /-- the rest state is MOVING -/
  moving : Bool
  /-- the time of the last accepted edge, in microseconds -/
  previousEdge : Option Nat
  qualification : Qualification
  /-- the inconsistent run, 0 or 1 -/
  inconsistentRun : Nat
  /-- the silence reference, in microseconds -/
  silenceRef : Nat
  /-- P -/
  accumulator : Nat
  source : CamSource
  /-- the chuff index -/
  index : Nat
  deriving DecidableEq, Repr

/-- A voice of the sound engine. -/
structure Voice where
  /-- the cue it plays; `none` when free or idle -/
  cue : Option Nat
  position : Nat
  held : Bool
  volume : Nat
  /-- its start order; used in the pool -/
  order : Nat
  deriving DecidableEq, Repr

/-- The write state of the sample memory. -/
inductive SampleWrite where
  | idle
  | erasing (sector : Nat)
  /-- the address, and the data bytes, whose number is the count -/
  | programming (address : Nat) (data : List Byte)
  deriving DecidableEq, Repr

/-- The Sound Engine (chapter 9), but for the sample memory, which outlives a reset. -/
structure Snd where
  /-- the engine state is ON -/
  on : Bool
  mute : Bool
  power : PowerState
  cap : Nat
  /-- voice 0 -/
  chuff : Voice
  /-- voice 1 -/
  background : Voice
  /-- voices 2 to 5 -/
  pool : List Voice
  /-- the start order the next start in the pool takes -/
  nextOrder : Nat
  /-- the resume stack, top first -/
  stack : List Nat
  /-- M -/
  master : Nat
  /-- the sample last sent on the I2S output -/
  output : Int
  writeState : SampleWrite
  /-- SAMPLE_UNDERRUN -/
  underrun : Bool
  deriving DecidableEq, Repr

/-- The smoke states (Table 10-1). -/
inductive SmokeState where
  | off
  | heating
  | ready
  | suspended
  | fault
  deriving DecidableEq, Repr

/-- The Smoke Controller (chapter 10). -/
structure Smk where
  enable : Bool
  state : SmokeState
  /-- H -/
  heater : Nat
  /-- the last temperature -/
  temperature : Option Nat
  /-- the age is FRESH -/
  fresh : Bool
  ageTimer : Timer
  requestTimer : Timer
  /-- the fan duty that the smoke state and the puff give -/
  fan : Nat
  puffTimer : Timer
  hmax : Nat
  power : PowerState
  /-- SMOKE_DRY -/
  dry : Bool
  deriving DecidableEq, Repr

/-- One lamp output (section 10.5). -/
structure Lamp where
  on : Bool
  effect : Effect
  dim : Bool
  shown : Nat
  /-- the blink phase is LIT -/
  lit : Bool
  blinkTimer : Timer
  soft : Nat
  softTimer : Timer
  deriving DecidableEq, Repr

/-- The Lamp Driver (chapter 10). -/
structure Lmp where
  /-- the outputs 0 to 7 -/
  outputs : List Lamp
  /-- the flicker generator -/
  flicker : BitVec 16
  power : PowerState
  deriving DecidableEq, Repr

/-- The qualification of a source (R182). -/
inductive SupplyQualification where
  | absent
  | qualifying
  | qualified
  deriving DecidableEq, Repr

/-- What PPM holds for TRACK or BATTERY. -/
structure SupplyState where
  /-- the voltage at its presence comparator, as the code that the converter reads for it (R182) -/
  voltage : BitVec 12
  /-- the comparator's reading -/
  present : Bool
  qualification : SupplyQualification
  timer : Timer
  /-- the fast return is AWAITED -/
  fastReturn : Bool
  deriving DecidableEq, Repr

/-- What the power path draws from. -/
inductive Active where
  | noSource
  | track
  | battery
  | buffer
  deriving DecidableEq, Repr

/-- The kinds of reset (R190). -/
inductive ResetKind where
  | powerOn
  | brownout
  | command
  | factory
  deriving DecidableEq, Repr

/-- How far a reset has come (R191). -/
inductive Phase where
  | running
  /-- taken, and not yet released -/
  | held (kind : ResetKind)
  /-- a factory restore is being written -/
  | restoring
  deriving DecidableEq, Repr

/-- The Power Path Manager (chapter 11). -/
structure Ppm where
  track : SupplyState
  battery : SupplyState
  active : Active
  power : PowerState
  coastTimer : Timer
  bufferTimer : Timer
  shed : Nat
  overTimer : Timer
  underTimer : Timer
  hot : Bool
  /-- the caps last published -/
  dcap : Nat
  hmax : Nat
  soundCap : Nat
  /-- the reset cause -/
  cause : ResetKind
  phase : Phase
  deriving DecidableEq, Repr

end Sys2Proof.Machine
end

