-- ==== Sys2Proof/Machine/Operands.lean ====
section
/-!
DEFINITION. The operands of the frame commands: the fields of a frame (R2), the payloads of Table 1-1, and the test of
well-formedness (R4).
-/
namespace Sys2Proof.Machine

/-- Kind, bits 7 to 4 of the lead byte. -/
def frameKind (f : Frame) : Nat := fieldAt f 0 4 4

/-- Address, 12 bits. -/
def frameAddress (f : Frame) : Nat := fieldAt f 0 0 4 * 256 + byteAt f 1

/-- Length, the number of payload bytes. -/
def frameLength (f : Frame) : Nat := byteAt f 2

/-- The payload. -/
def framePayload (f : Frame) : List Byte := slice f 3 (frameLength f)

/-- The Length that Table 1-1 gives a Kind from 0 to 12. -/
def lengthFits (kind len : Nat) : Bool :=
  match kind with
  | 0 => len = 2
  | 1 => len = 1
  | 2 => len = 2
  | 3 => len = 0
  | 4 => len = 1
  | 5 => 1 ≤ len && len ≤ 16
  | 6 => len = 2
  | 7 => len = 4
  | 8 => len = 0
  | 9 => len = 0
  | 10 => len = 2
  | 11 => 4 ≤ len && len ≤ 16
  | 12 => len = 3
  | _ => false

/-- The payload fields that R4 tests lie in their ranges. -/
def payloadFits (kind : Nat) (p : List Byte) : Bool :=
  match kind with
  | 0 => byteAt p 0 ≤ 1
  | 1 => byteAt p 0 ≤ 1
  | 2 => byteAt p 0 ≤ 7
  | 7 => 1 ≤ byteAt p 3 && byteAt p 3 ≤ 13
  | 12 => byteAt p 2 ≤ 1
  | _ => true

/-- A frame of Kind 0 to 12 is well formed (R4). -/
def frameWellFormed (f : Frame) : Bool :=
  lengthFits (frameKind f) (frameLength f) && payloadFits (frameKind f) (framePayload f)

/-- The direction a byte names (Table 1-1). -/
def dirOfByte (n : Nat) : Dir := if n = 0 then .fwd else .rev

/-- The other direction. -/
def dirInverted (d : Dir) : Dir :=
  match d with
  | .fwd => .rev
  | .rev => .fwd

/-- The frame that the part sends: lead byte, address low byte, Length, payload and Check (R2, R3). -/
def makeFrame (kind address : Nat) (payload : List Byte) : Frame :=
  let body := toByte (kind * 16 + address / 256) :: toByte address :: toByte payload.length :: payload
  body ++ [checkByte body]

/-- The characters of a frame on a line, each with its marker: set on byte 0 only (R1). -/
def frameCharacters (f : Frame) : List (Bool × Byte) :=
  match f with
  | [] => []
  | lead :: rest => (true, lead) :: rest.map (fun b => (false, b))

/-! ### Characters on the lines (R1, R8) -/

/-- The level at which a line rests, and at which a stop bit is sent (R1). A line has two levels, `true` and `false`; that
a set bit is sent at the stop level, and a start bit at the other, is PRESUMED (notes/assumptions/18). -/
def stopLevel : Bool := true

/-- The levels of a character on a line, one a bit time: start bit, eight data bits, least significant first, marker, stop
bit (R1). -/
def characterLevels (marker : Bool) (b : Byte) : List Bool :=
  [!stopLevel] ++ (List.range 8).map (fun n => b.getLsbD n) ++ [marker, stopLevel]

/-- The levels of a frame on a line whose characters follow one another without pause (R1). -/
def frameLevels (f : Frame) : List Bool := (frameCharacters f).flatMap (fun c => characterLevels c.1 c.2)

/-- The byte of eight data bits, least significant first (R1). -/
def byteOfBits (bits : List Bool) : Byte := BitVec.ofNat 8 (bits.foldr (fun b n => 2 * n + b.toNat) 0)

/-- The event that eleven levels on CMD_RX are: a whole character, or a broken one, whose stop bit is at the wrong level
(R1, R8); no character begins at the stop level. -/
def characterHeard (levels : List Bool) : Option Instr :=
  match levels with
  | [start, d0, d1, d2, d3, d4, d5, d6, d7, marker, stop] =>
    if start = stopLevel then none
    else if stop = stopLevel then some (.characterReceived (byteOfBits [d0, d1, d2, d3, d4, d5, d6, d7]) marker)
    else some .brokenCharacter
  | _ => none

/-- The RESULT codes (Table 1-2). -/
inductive ResultCode where
  | accepted
  | busy
  | notOpen
  | range
  | invalid
  | readOnly
  | soundOn
  | badConfirm
  | badTable
  deriving DecidableEq, Repr

/-- The number of a RESULT code. -/
def resultNumber (c : ResultCode) : Nat :=
  match c with
  | .accepted => 0
  | .busy => 1
  | .notOpen => 2
  | .range => 3
  | .invalid => 4
  | .readOnly => 5
  | .soundOn => 6
  | .badConfirm => 7
  | .badTable => 8

/-- A RESULT reply: request kind, code, detail (R5). -/
def resultFrame (address kind : Nat) (code : ResultCode) (detail : Nat) : Frame :=
  makeFrame 13 address (toByte kind :: toByte (resultNumber code) :: bytes16 detail)

/-- A CFG_DATA reply: table id, index and data bytes (R5). -/
def dataFrame (address table index : Nat) (data : List Byte) : Frame :=
  makeFrame 15 address (toByte table :: bytes16 index ++ data)

/-! ### Which row of the table a head frame belongs to -/

/-- A head frame of Kind 13 to 15. -/
def isReplyFrame (f : Frame) : Bool := 13 ≤ frameKind f

/-- A head frame of the given Kind. -/
def isKind (kind : Nat) (f : Frame) : Bool := frameKind f = kind

/-- A head frame of the given Kind that is not a well-formed frame whose byte at `i` of the payload is `v`. The two rows
of one Kind (HALT, RESET) are told apart so; a malformed frame is taken, and discarded, by either. -/
def isKindBut (kind i v : Nat) (f : Frame) : Bool :=
  frameKind f = kind && !(frameWellFormed f && byteAt (framePayload f) i = v)

end Sys2Proof.Machine
end

