-- ==== Sys2Proof/Machine/Records.lean ====
section
/-!
DEFINITION. The records of the tables (section 3.8) and the validation of each table (R19, R46 to R50).
-/
namespace Sys2Proof.Machine

/-- The value a per-table record holds for a table. -/
def tableGet {α : Type} (p : PerTable α) (t : TableId) : α :=
  match t with
  | .settings => p.settings
  | .address => p.address
  | .speed => p.speed
  | .map => p.map
  | .cues => p.cues
  | .lamps => p.lamps

/-- A per-table record with one table's value replaced. -/
def tablePut {α : Type} (p : PerTable α) (t : TableId) (x : α) : PerTable α :=
  match t with
  | .settings => { p with settings := x }
  | .address => { p with address := x }
  | .speed => { p with speed := x }
  | .map => { p with map := x }
  | .cues => { p with cues := x }
  | .lamps => { p with lamps := x }

/-! ### ADDRESS (R18, R19, Table 3-5) -/

/-- The kinds of address table entry. -/
inductive EntryKind where
  | primary
  | consist
  | group
  | relay
  deriving DecidableEq, Repr

/-- An entry of the address table (R18). -/
structure AddressEntry where
  valid : Bool
  kind : EntryKind
  address : Nat
  mask : Nat
  reversed : Bool
  low : Nat
  high : Nat
  deriving DecidableEq, Repr

/-- The kind that bits 6 to 5 of byte 0 name. -/
def entryKindOf (n : Nat) : EntryKind :=
  match n with
  | 0 => .primary
  | 1 => .consist
  | 2 => .group
  | _ => .relay

/-- Entry `k` of an ADDRESS image (Table 3-5). -/
def addressEntry (b : List Byte) (k : Nat) : AddressEntry :=
  { valid := bitAt b (6 * k) 7
    kind := entryKindOf (fieldAt b (6 * k) 5 2)
    reversed := bitAt b (6 * k) 4
    address := fieldAt b (6 * k) 0 4 * 256 + byteAt b (6 * k + 1)
    mask := fieldAt b (6 * k + 2) 0 4 * 256 + byteAt b (6 * k + 3)
    low := byteAt b (6 * k + 4)
    high := byteAt b (6 * k + 5) }

/-- An entry is a valid CONSIST entry. -/
def isConsist (e : AddressEntry) : Bool := e.valid && e.kind = .consist

/-- Entry `k` breaks one of the conditions of R19. -/
def addressBreaks (b : List Byte) (k : Nat) : Bool :=
  let e := addressEntry b k
  (k = 0 && !(e.valid && e.kind = .primary)) ||
    (e.valid &&
      ((k ≠ 0 && e.kind = .primary) ||
        (e.kind = .consist && (List.range k).any (fun j => isConsist (addressEntry b j))) ||
        e.address = 0 || 63 < e.low || 63 < e.high || e.high < e.low))

/-- The first offending entry of an ADDRESS image (R19). -/
def addressOffence (b : List Byte) : Option Nat := (List.range 8).find? (addressBreaks b)

/-! ### SETTINGS (R46) -/

/-- LOAD_OFF is below LOAD_ON, and SMK_DRY above SMK_TARGET. -/
def settingsPairsRight (b : List Byte) : Bool := byteAt b 10 < byteAt b 9 && word16At b 35 < word16At b 41

/-- The start-up test of R46. -/
def settingsValid (b : List Byte) : Bool :=
  settingRows.all (fun r => decide (r.lowest ≤ settingValue b r) && decide (settingValue b r ≤ r.highest)) &&
    (slice b 61 3).all (fun x => x = 0) && settingsPairsRight b

/-- Step 1 of R46: every setting clamped to its range, and the bytes that hold no setting 0. -/
def settingsClamped (b : List Byte) : List Byte :=
  splice (settingRows.foldl (fun c r => putSetting c r (clampNat (settingValue c r) r.lowest r.highest)) b)
    61 [0, 0, 0]

/-- Step 2 of R46. -/
def settingsLoadRepaired (b : List Byte) : List Byte :=
  if byteAt b 10 < byteAt b 9 then b else splice b 10 [toByte (byteAt b 9 - 1)]

/-- Step 3 of R46. -/
def settingsSmokeRepaired (b : List Byte) : List Byte :=
  if word16At b 35 < word16At b 41 then b else splice b 41 (bytes16 (word16At b 35 + 1))

/-- The content that a commit of SETTINGS installs (R46). -/
def settingsPutRight (b : List Byte) : List Byte := settingsSmokeRepaired (settingsLoadRepaired (settingsClamped b))

/-! ### SPEED (R47, Table 3-6) -/

/-- Anchor A[k] of a SPEED image. -/
def anchor (b : List Byte) (k : Nat) : Nat := word16At b (2 * k)

/-- The first offending anchor of a SPEED image (R47). -/
def speedOffence (b : List Byte) : Option Nat :=
  (List.range 17).find? (fun k => decide (1023 < anchor b k) || (k ≠ 0 && decide (anchor b k < anchor b (k - 1))))

/-! ### MAP (R48, R59, Table 3-7) -/

/-- The input that turns a map entry on. -/
inductive Trigger where
  | function (n : Nat)
  | condition (n : Nat)
  deriving DecidableEq, Repr

/-- The direction qualifier. -/
inductive DirQualifier where
  | any
  | fwd
  | rev
  deriving DecidableEq, Repr

/-- The motion qualifier. -/
inductive MotionQualifier where
  | any
  | moving
  | stopped
  deriving DecidableEq, Repr

/-- The action of a map entry, with the fields that R59 gives a meaning to for it. -/
inductive Action where
  | lamp (output : Nat) (demand : LampDemand)
  | cue (cue : Nat)
  | smoke
  | mute
  | shunt
  | momentumOff
  deriving DecidableEq, Repr

/-- A map entry (R59). A qualifier or an action whose bits name none is `none`; R48 refuses it in a used entry. -/
structure MapEntry where
  used : Bool
  trigger : Trigger
  direction : Option DirQualifier
  motion : Option MotionQualifier
  action : Option Action
  deriving DecidableEq, Repr

/-- The effect that two bits name. -/
def effectOf (n : Nat) : Effect :=
  match n with
  | 0 => .steady
  | 1 => .flicker
  | 2 => .blink
  | _ => .soft

/-- The direction qualifier that two bits name. -/
def dirQualifierOf (n : Nat) : Option DirQualifier :=
  match n with
  | 0 => some .any
  | 1 => some .fwd
  | 2 => some .rev
  | _ => none

/-- The motion qualifier that two bits name. -/
def motionQualifierOf (n : Nat) : Option MotionQualifier :=
  match n with
  | 0 => some .any
  | 1 => some .moving
  | 2 => some .stopped
  | _ => none

/-- The action of the entry at byte `i` of a MAP image. -/
def mapAction (b : List Byte) (i : Nat) : Option Action :=
  match fieldAt b (i + 1) 0 3 with
  | 0 => some (.lamp (byteAt b (i + 2)) { effect := effectOf (fieldAt b (i + 3) 0 2), dim := bitAt b (i + 3) 7 })
  | 1 => some (.cue (byteAt b (i + 2)))
  | 2 => some .smoke
  | 3 => some .mute
  | 4 => some .shunt
  | 5 => some .momentumOff
  | _ => none

/-- Entry `k` of a MAP image (Table 3-7). -/
def mapEntry (b : List Byte) (k : Nat) : MapEntry :=
  let n := fieldAt b (4 * k) 0 6
  { used := bitAt b (4 * k) 7
    trigger := if bitAt b (4 * k) 6 then .condition n else .function n
    direction := dirQualifierOf (fieldAt b (4 * k + 1) 6 2)
    motion := motionQualifierOf (fieldAt b (4 * k + 1) 4 2)
    action := mapAction b (4 * k) }

/-- The 32 entries of a MAP image. -/
def mapEntries (b : List Byte) : List MapEntry := (List.range 32).map (mapEntry b)

/-- The trigger exists (R48). -/
def triggerExists (t : Trigger) : Bool :=
  match t with
  | .function n => n < 64
  | .condition n => n < 8

/-- The action exists and its target too (R48). -/
def actionExists (a : Option Action) : Bool :=
  match a with
  | none => false
  | some (.lamp n _) => n < 8
  | some (.cue c) => c < 64
  | some _ => true

/-- An entry fails R48. -/
def mapBreaks (e : MapEntry) : Bool :=
  e.used && !(triggerExists e.trigger && e.direction.isSome && e.motion.isSome && actionExists e.action)

/-- The first offending entry of a MAP image (R48). -/
def mapOffence (b : List Byte) : Option Nat := (List.range 32).find? (fun k => mapBreaks (mapEntry b k))

/-! ### CUES (R49, R149, Table 3-8) -/

/-- A cue record (R149). -/
structure CueRecord where
  start : Nat
  length : Nat
  loop : Bool
  loopStart : Nat
  loopEnd : Nat
  volume : Nat
  priority : Nat
  next : Option Nat
  deriving DecidableEq, Repr

/-- Record `k` of a CUES image (Table 3-8). -/
def cueRecordAt (b : List Byte) (k : Nat) : CueRecord :=
  let i := 16 * k
  { start := word24At b i
    length := word24At b (i + 3)
    loop := bitAt b (i + 6) 7
    priority := fieldAt b (i + 6) 0 3
    next := if bitAt b (i + 6) 6 then some (byteAt b (i + 7)) else none
    loopStart := word24At b (i + 8)
    loopEnd := word24At b (i + 11)
    volume := byteAt b (i + 14) }

/-- A record fails R49. -/
def cueBreaks (r : CueRecord) : Bool :=
  r.length ≠ 0 &&
    (r.start % 2 ≠ 0 || 16777216 < r.start + 2 * r.length ||
      (r.loop && !(decide (r.loopStart < r.loopEnd) && decide (r.loopEnd ≤ r.length))) || 63 < r.next.getD 0)

/-- The first offending record of a CUES image (R49). -/
def cuesOffence (b : List Byte) : Option Nat := (List.range 64).find? (fun k => cueBreaks (cueRecordAt b k))

/-- The record of an empty cue. -/
def emptyCue : CueRecord :=
  { start := 0, length := 0, loop := false, loopStart := 0, loopEnd := 0, volume := 0, priority := 0, next := none }

/-! ### LAMPS (R50) -/

/-- A record of the LAMPS table: brightness, blink half-period in units of 10 ms, soft step time in ms. -/
structure LampRecord where
  brightness : Nat
  halfPeriod : Nat
  softStep : Nat
  deriving DecidableEq, Repr

/-- Record `k` of a LAMPS image. -/
def lampRecordAt (b : List Byte) (k : Nat) : LampRecord :=
  { brightness := byteAt b (4 * k), halfPeriod := byteAt b (4 * k + 1), softStep := byteAt b (4 * k + 2) }

/-- The first offending record of a LAMPS image (R50). -/
def lampsOffence (b : List Byte) : Option Nat :=
  (List.range 8).find? (fun k =>
    let r := lampRecordAt b k
    63 < r.brightness || r.halfPeriod = 0 || r.softStep = 0)

/-! ### All tables -/

/-- The first offending entry, anchor or record of an edited table; SETTINGS has no structural faults (R45, R46). -/
def commitOffence (t : TableId) (b : List Byte) : Option Nat :=
  match t with
  | .settings => none
  | .address => addressOffence b
  | .speed => speedOffence b
  | .map => mapOffence b
  | .cues => cuesOffence b
  | .lamps => lampsOffence b

/-- What a commit installs: for SETTINGS the content after clamping and repair (R45, R46). -/
def commitContent (t : TableId) (b : List Byte) : List Byte :=
  match t with
  | .settings => settingsPutRight b
  | _ => b

/-- The validation of a stored image at start-up (R53). -/
def contentValid (t : TableId) (b : List Byte) : Bool :=
  match t with
  | .settings => settingsValid b
  | _ => (commitOffence t b).isNone

/-- The check word of a table's bytes (R52). -/
def checkWord (b : List Byte) : Nat := sumBytes b % 65536

/-- A stored image passes the three tests of R53. -/
def imagePasses (t : TableId) (m : Image) : Bool :=
  !m.mark && checkWord m.bytes = m.check && contentValid t m.bytes

end Sys2Proof.Machine
end

