-- ==== Sys2Proof/Machine/ResetValues.lean ====
section
/-!
DEFINITION. What each block holds after any reset, block by block, as the last rule of each chapter tabulates it.
-/
namespace Sys2Proof.Machine

/-- R17. -/
def cliReset : Cli :=
  { assembler := none, interByte := none, inbound := [], hold := false, replies := [], replySending := false,
    relays := [], relaySending := false, truncated := false, frameDropped := false, replyDropped := false,
    relayDisplaced := false, checkErrors := 0 }

/-- R37. -/
def dspReset : Dsp := { lossTimer := none, signalLost := false }

/-- The default table images (Table 3-4). -/
def defaultTables : PerTable (List Byte) :=
  { settings := defaultSettings, address := defaultAddress, speed := defaultSpeed, map := defaultMap,
    cues := defaultCues, lamps := defaultLamps }

/-- R55: the editing state after any reset; the active copies are as R53 loads them. -/
def tbsReset (active : PerTable (List Byte)) (defaulted : Bool) : Tbs :=
  { active := active, openTable := none, edit := List.replicate 1024 0, pointer := 0, writing := none,
    defaulted := defaulted }

/-- The condition copies of FNU all clear. -/
def conditionsReset : Conditions :=
  { moving := false, accelerating := false, decelerating := false, loaded := false, signalLost := false,
    coasting := false, stalled := false, smokeReady := false }

/-- The outputs of FNU all off. -/
def outputsReset : Outputs :=
  { lamps := List.replicate 8 none, smoke := false, mute := false, shunt := false, momentumOff := false }

/-- R69. -/
def fnuReset : Fnu :=
  { functions := 0, conditions := conditionsReset, drive := .fwd, activity := List.replicate 32 false,
    delivered := outputsReset, waiting := [] }

/-- The conditions of TRC all clear. -/
def tractionConditionsReset : TractionConditions :=
  { moving := false, accelerating := false, decelerating := false, loaded := false, stalled := false }

/-- R100. -/
def trcReset : Trc :=
  { step := 0, stated := .fwd, target := 0, ramp := 0, drive := .fwd, armed := false, integral := 0, duty := 0,
    speed := 0, load := 0, loaded := false, state := .idle, dcap := 0, shunt := false, momentumOff := false,
    bemfTimer := none, outstanding := false, stallTimer := none, published := tractionConditionsReset }

/-- R116. The comparator's kept level has no reset value there: 0, a DESIGN CHOICE (notes/assumptions/4); it is set at
every entry to DRIVE before it is used. -/
def mbrReset : Mbr :=
  { bridge := .off, mode := .off, demanded := 0, drive := .fwd, applied := 0, period := none, periods := 0,
    gap := .noGap, settleTimer := none, awaited := false, retryTimer := none, overloads := 0,
    tripFreeTimer := none, tripLevel := 0, currentHold := false, heldCode := none, sample := .present,
    lockoutShort := false }

/-- R132, with the scan timer not yet started: R191 starts it at the release. -/
def msqReset : Msq :=
  { converting := none, slot := .empty, gap := .noRequest, queue := [], scanTimer := none, pass := [],
    results := List.replicate 8 0 }

/-- R144. -/
def camReset : Cam :=
  { time := 0, moving := false, previousEdge := none, qualification := .unqualified, inconsistentRun := 0,
    silenceRef := 0, accumulator := 0, source := .virtual, index := 0 }

/-- A voice that plays nothing (R166). -/
def voiceFree : Voice := { cue := none, position := 0, held := false, volume := 0, order := 0 }

/-- R166. -/
def sndReset : Snd :=
  { on := false, mute := false, power := .init, cap := 0, chuff := voiceFree, background := voiceFree,
    pool := List.replicate 4 voiceFree, nextOrder := 1, stack := [], master := 0, output := 0,
    writeState := .idle, underrun := false }

/-- R174. -/
def smkReset : Smk :=
  { enable := false, state := .off, heater := 0, temperature := none, fresh := false, ageTimer := none,
    requestTimer := none, fan := 0, puffTimer := none, hmax := 0, power := .init, dry := false }

/-- R181, one output. -/
def lampReset : Lamp :=
  { on := false, effect := .steady, dim := false, shown := 0, lit := false, blinkTimer := none, soft := 0,
    softTimer := none }

/-- R181. -/
def lmpReset : Lmp := { outputs := List.replicate 8 lampReset, flicker := 0xACE1, power := .init }

/-- R192, one source: the voltage at its comparator and the comparator's reading stay as they are. -/
def supplyReset (v : SupplyState) : SupplyState :=
  { voltage := v.voltage, present := v.present, qualification := .absent, timer := none, fastReturn := false }

/-- A source with no voltage. -/
def noSupply : SupplyState :=
  { voltage := 0, present := false, qualification := .absent, timer := none, fastReturn := false }

/-- R192, with what the sources were, the reset cause and the phase as given. -/
def ppmReset (track battery : SupplyState) (cause : ResetKind) (phase : Phase) : Ppm :=
  { track := supplyReset track, battery := supplyReset battery, active := .noSource, power := .init,
    coastTimer := none, bufferTimer := none, shed := 0, overTimer := none, underTimer := none, hot := false,
    dcap := 0, hmax := 0, soundCap := 0, cause := cause, phase := phase }

/-- A good stored image of a table: its bytes, their check word, and the mark clear (R52). -/
def goodImage (b : List Byte) : Image := { bytes := b, check := sumBytes b % 65536, mark := false }

/-- The nonvolatile store with every table's defaults written (R54). -/
def defaultStore : PerTable Image :=
  { settings := goodImage defaultSettings, address := goodImage defaultAddress, speed := goodImage defaultSpeed,
    map := goodImage defaultMap, cues := goodImage defaultCues, lamps := goodImage defaultLamps }

end Sys2Proof.Machine
end

