-- ==== Sys2Proof/Machine/State.lean ====
section
/-!
DEFINITION. The state of the whole part, its reset, and the reasons for which a step could stop.
-/
namespace Sys2Proof.Machine

/-- The state of the part: its twelve blocks, what outlives a reset (the nonvolatile store and the sample memory), and
the commands that wait, first in, first out. -/
structure State where
  cli : Cli
  dsp : Dsp
  tbs : Tbs
  fnu : Fnu
  trc : Trc
  mbr : Mbr
  msq : Msq
  cam : Cam
  snd : Snd
  smk : Smk
  lmp : Lmp
  ppm : Ppm
  /-- the nonvolatile store: the stored image of each of tables 0 to 5 (R52) -/
  store : PerTable Image
  /-- the sample memory, 16 MiB (R145): the bytes that are not 0xFF, by rising address -/
  samples : List Host.Cell
  /-- the MODEL's own: how many bytes have been left open by interrupted erases and programs (R148) -/
  free : Nat
  /-- the MODEL's own: the commands that wait -/
  pending : List Instr
  deriving DecidableEq, Repr

/-- Why the part stops with a fault. Nothing of this part stops it: no rule names a stop, so no command raises a fault
and the type has no constructor (safe: a claim that a run goes on claims nothing that the manual does not). -/
inductive Fault where
  deriving DecidableEq, Repr

/-- Why a command has no meaning. -/
inductive Refusal where
  /-- Raised by the arm of `exec` of a command whose meaning is not written yet. No arm raises it. Safe: it only stops. -/
  | notModelled (mnemonic : String)
  deriving DecidableEq, Repr

/-- The part right after a POWER_ON reset has been released with no supply present, its store holding the default
tables: the reset values of R17, R37, R55, R69, R100, R116, R132, R144, R166, R174, R181 and R192, with the scan timer
started and the traction state SUSPENDED, as the announcement of INIT at the release leaves it (R191, R96). The store's
first content, the sample memory's and the supplies' voltages are DESIGN CHOICES (notes/assumptions/4). -/
def State.reset : State :=
  { cli := cliReset
    dsp := dspReset
    tbs := tbsReset defaultTables false
    fnu := fnuReset
    trc := { trcReset with state := .suspended }
    mbr := mbrReset
    msq := { msqReset with scanTimer := some 10000 }
    cam := camReset
    snd := sndReset
    smk := smkReset
    lmp := lmpReset
    ppm := ppmReset noSupply noSupply .powerOn .running
    store := defaultStore
    samples := []
    free := 0
    pending := [] }

end Sys2Proof.Machine
end

