-- ==== Sys2Proof/Machine/Settings.lean ====
section
/-!
DEFINITION. The settings in force (Table 3-9) and the records in force, read from the active copies at the moment of use
(section 0.7, Settings).
-/
namespace Sys2Proof.Machine

/-- A one-byte setting of the active SETTINGS table. -/
def setting1 (s : State) (offset : Nat) : Nat := byteAt s.tbs.active.settings offset

/-- A two-byte setting of the active SETTINGS table. -/
def setting2 (s : State) (offset : Nat) : Nat := word16At s.tbs.active.settings offset

def State.accel (s : State) : Nat := setting1 s 0
def State.decel (s : State) : Nat := setting1 s 1
def State.fsDecel (s : State) : Nat := setting1 s 2
/-- REG_ON is 1. -/
def State.regOn (s : State) : Bool := setting1 s 3 = 1
def State.kp (s : State) : Nat := setting1 s 4
def State.ki (s : State) : Nat := setting1 s 5
def State.bemfPeriod (s : State) : Nat := setting1 s 6
def State.bemfScale (s : State) : Nat := setting2 s 7
def State.loadOn (s : State) : Nat := setting1 s 9
def State.loadOff (s : State) : Nat := setting1 s 10
def State.stallDuty (s : State) : Nat := setting2 s 11
def State.stallSpeed (s : State) : Nat := setting2 s 13
def State.stallTime (s : State) : Nat := setting1 s 15
def State.pwmFreq (s : State) : Nat := setting1 s 16
def State.gapSettle (s : State) : Nat := setting1 s 17
def State.tripLevelSetting (s : State) : Nat := setting1 s 18
def State.shortLevel (s : State) : Nat := setting2 s 19
/-- EMERG_MODE is BRAKE. -/
def State.emergBrakes (s : State) : Bool := setting1 s 21 = 0
def State.lossTime (s : State) : Nat := setting1 s 22
/-- LOSS_ACTION is STOP. -/
def State.lossStops (s : State) : Bool := setting1 s 23 = 0
def State.scanSet (s : State) : Nat := setting1 s 24
def State.scanPeriod (s : State) : Nat := setting1 s 25
/-- CAM_MODE is SENSOR_PREFERRED. -/
def State.sensorPreferred (s : State) : Bool := setting1 s 26 = 1
def State.cpr (s : State) : Nat := setting1 s 27
def State.camScale (s : State) : Nat := setting1 s 28
def State.camDebounce (s : State) : Nat := setting1 s 29
def State.volume (s : State) : Nat := setting1 s 30
def State.chuffCue (s : State) : Nat := setting1 s 31
def State.bgIdleCue (s : State) : Nat := setting1 s 32
def State.bgRunCue (s : State) : Nat := setting1 s 33
def State.loadGain (s : State) : Nat := setting1 s 34
def State.smkTarget (s : State) : Nat := setting2 s 35
def State.smkBand (s : State) : Nat := setting2 s 37
def State.smkGain (s : State) : Nat := setting1 s 39
def State.smkMax (s : State) : Nat := setting1 s 40
def State.smkDry (s : State) : Nat := setting2 s 41
def State.fanIdle (s : State) : Nat := setting1 s 43
def State.fanPuff (s : State) : Nat := setting1 s 44
def State.puffTime (s : State) : Nat := setting1 s 45
/-- SRC_PREF is BATTERY_FIRST. -/
def State.batteryFirst (s : State) : Bool := setting1 s 46 = 1
def State.trackMin (s : State) : Nat := setting1 s 47
def State.battMin (s : State) : Nat := setting1 s 48
def State.trackLimit (s : State) : Nat := setting2 s 49
def State.battLimit (s : State) : Nat := setting2 s 51
def State.coastLimit (s : State) : Nat := setting1 s 53
def State.coastCap (s : State) : Nat := setting2 s 54
def State.coastVol (s : State) : Nat := setting1 s 56
def State.holdLevel (s : State) : Nat := setting2 s 57
def State.thermHi (s : State) : Nat := setting2 s 59

/-- Entry `k` of the active address table. -/
def State.entry (s : State) (k : Nat) : AddressEntry := addressEntry s.tbs.active.address k

/-- The Address of entry 0 of the active address table, which every reply carries (R5). -/
def State.primaryAddress (s : State) : Nat := (s.entry 0).address

/-- The record of a cue; a number above 63 is an empty cue (R149). -/
def State.cueRecord (s : State) (c : Nat) : CueRecord :=
  if c < 64 then cueRecordAt s.tbs.active.cues c else emptyCue

/-- A cue is empty (R149). -/
def State.cueEmpty (s : State) (c : Nat) : Bool := (s.cueRecord c).length = 0

/-- The lamp record of an output. -/
def State.lampRecord (s : State) (n : Nat) : LampRecord := lampRecordAt s.tbs.active.lamps n

end Sys2Proof.Machine
end

