-- ==== Sys2Proof/Machine/Ops.lean ====
section
/-!
DEFINITION. The named operations on the state: one update for each field, the inbound, reply and relay queues (chapter 1),
the publications to FNU (R57), and the command-loss timer (R28).
-/
namespace Sys2Proof.Machine

/-! ### One update for each field of the state -/

def State.setCli (s : State) (x : Cli) : State := { s with cli := x }
def State.setDsp (s : State) (x : Dsp) : State := { s with dsp := x }
def State.setTbs (s : State) (x : Tbs) : State := { s with tbs := x }
def State.setFnu (s : State) (x : Fnu) : State := { s with fnu := x }
def State.setTrc (s : State) (x : Trc) : State := { s with trc := x }
def State.setMbr (s : State) (x : Mbr) : State := { s with mbr := x }
def State.setMsq (s : State) (x : Msq) : State := { s with msq := x }
def State.setCam (s : State) (x : Cam) : State := { s with cam := x }
def State.setSnd (s : State) (x : Snd) : State := { s with snd := x }
def State.setSmk (s : State) (x : Smk) : State := { s with smk := x }
def State.setLmp (s : State) (x : Lmp) : State := { s with lmp := x }
def State.setPpm (s : State) (x : Ppm) : State := { s with ppm := x }
def State.setStore (s : State) (x : PerTable Image) : State := { s with store := x }
def State.setSamples (s : State) (x : List Host.Cell) : State := { s with samples := x }
def State.setFree (s : State) (x : Nat) : State := { s with free := x }
def State.setPending (s : State) (x : List Instr) : State := { s with pending := x }

/-! ### The inbound queue (R10, R11) -/

/-- A good frame completes: it joins the tail, or is dropped at 8 waiting; CMD_HOLD is asserted at a count of 6. -/
def inboundJoin (c : Cli) (f : Frame) : Cli :=
  if c.inbound.length < 8 then
    { c with inbound := c.inbound ++ [f], hold := c.hold || c.inbound.length + 1 = 6 }
  else { c with frameDropped := true }

/-- DSP takes the head frame, leaving `rest`; CMD_HOLD is released when the count falls to 3. -/
def inboundTake (c : Cli) (rest : List Frame) : Cli :=
  { c with inbound := rest, hold := c.hold && rest.length ≠ 3 }

/-! ### The reply queue and REPLY_TX (R12, R13) -/

/-- There is room for a reply. -/
def replyRoom (c : Cli) : Bool := c.replies.length < 4

/-- A reply is offered: it joins the tail, and an idle sender starts on it, or it is dropped at 4 queued. -/
def replyOffer (c : Cli) (f : Frame) : Cli :=
  if replyRoom c then { c with replies := c.replies ++ [f], replySending := true }
  else { c with replyDropped := true }

/-- The last byte of the head reply has gone: it leaves, and the next, if any, starts at once. -/
def replySent (c : Cli) : Cli :=
  if c.replySending then
    { c with replies := c.replies.tail, replySending := !c.replies.tail.isEmpty }
  else c

/-! ### The relay queue and TRAIN_TX (R14, R15) -/

/-- The queue of four without its oldest frame that is not being sent. -/
def relayDisplaceOldest (sending : Bool) (q : List Frame) : List Frame :=
  match sending, q with
  | true, head :: rest => head :: rest.tail
  | _, q => q.tail

/-- A copy is placed in the relay queue; at 4 queued it displaces the oldest that is not being sent. -/
def relayPlace (c : Cli) (f : Frame) : Cli :=
  if c.relays.length < 4 then { c with relays := c.relays ++ [f], relaySending := true }
  else
    { c with relays := relayDisplaceOldest c.relaySending c.relays ++ [f], relaySending := true,
             relayDisplaced := true }

/-- The last byte of the head copy has gone: it leaves, and the next, if any, starts at once. -/
def relaySent (c : Cli) : Cli :=
  if c.relaySending then
    { c with relays := c.relays.tail, relaySending := !c.relays.tail.isEmpty }
  else c

/-! ### The receive assembler (R6 to R9) -/

/-- The assembler returns to IDLE with its timer stopped. -/
def assemblerIdle (c : Cli) : Cli := { c with assembler := none, interByte := none }

/-- A partial frame is discarded with TRUNCATED set; IDLE is left as it is (R7, R8). -/
def assemblerDiscard (c : Cli) : Cli :=
  match c.assembler with
  | none => c
  | some _ => { assemblerIdle c with truncated := true }

/-- The inter-byte timer expires (R7). -/
def interByteExpiry (c : Cli) : Cli := if c.interByte.isSome then assemblerDiscard c else c

/-- The inter-byte timer's length, 5 ms. -/
def interByteTime : Nat := 5000

/-- A byte with the marker set begins a new frame. -/
def assemblerStart (c : Cli) (b : Byte) : Cli :=
  { c with assembler := some { bytes := [b], total := none }, interByte := some interByteTime }

/-- A completed frame is tested (R9): a sum that is not 0 raises the check-error count, held at 255. -/
def frameComplete (c : Cli) (f : Frame) : Cli :=
  if sumBytes f % 256 = 0 then inboundJoin c f else { c with checkErrors := min 255 (c.checkErrors + 1) }

/-- The size a frame is now known to have: byte 2, the Length, fixes it at 4 plus Length (R6). -/
def assemblyTotal (a : Assembly) (b : Byte) : Option Nat :=
  if a.bytes.length = 2 then some (4 + b.toNat) else a.total

/-- A byte without the marker is appended while COLLECTING, and the checks of R6 are made in turn. -/
def assemblerAppend (c : Cli) (a : Assembly) (b : Byte) : Cli :=
  let bytes := a.bytes ++ [b]
  let total := assemblyTotal a b
  if a.bytes.length = 2 && 16 < b.toNat then { assemblerIdle c with truncated := true }
  else if total = some bytes.length then frameComplete (assemblerIdle c) bytes
  else { c with assembler := some { bytes := bytes, total := total }, interByte := some interByteTime }

/-- A whole character is taken (R6). -/
def characterTaken (c : Cli) (b : Byte) (marker : Bool) : Cli :=
  match c.assembler, marker with
  | none, true => assemblerStart c b
  | none, false => c
  | some _, true => { assemblerStart c b with truncated := true }
  | some a, false => assemblerAppend c a b

/-! ### Publications to FNU (R57, R58) -/

/-- A publication is put where FNU takes it: after those published before it, and never inside an evaluation (R60). -/
def publish (s : State) (p : Publication) : State := s.setFnu { s.fnu with waiting := s.fnu.waiting ++ [p] }

/-! ### The command-loss timer (R28) -/

/-- The timer is started or restarted with LOSS_TIME × 0.1 s; at LOSS_TIME 0 it stops. -/
def lossRestart (s : State) : State :=
  s.setDsp { s.dsp with lossTimer := if s.lossTime = 0 then none else some (s.lossTime * 100000) }

/-! ### Replies (R5) -/

/-- A frame is offered to the reply queue. -/
def offerReply (s : State) (f : Frame) : State := s.setCli (replyOffer s.cli f)

end Sys2Proof.Machine
end

