-- ==== Sys2Proof/Machine/Sequencer.lean ====
section
/-!
DEFINITION. The measurement sequencer (chapter 7): the arbiter, the inject slot, the gap source, the request queue and
the scan pass.
-/
namespace Sys2Proof.Machine

/-- The channels in ascending order (Table 7-1). -/
def channels : List Channel := [.motorI, .bemf, .trackV, .batteryV, .bufferV, .supplyI, .smokeT, .boardT]

/-- The number of a channel. -/
def channelNumber (c : Channel) : Nat :=
  match c with
  | .motorI => 0
  | .bemf => 1
  | .trackV => 2
  | .batteryV => 3
  | .bufferV => 4
  | .supplyI => 5
  | .smokeT => 6
  | .boardT => 7

/-- The conversion that the arbiter starts for the highest pending source: INJECT, GAP, QUEUE, SCAN (R118). -/
def arbiterStart (q : Msq) : Msq :=
  match q.slot with
  | .waiting r => { q with slot := .converting r, converting := some ⟨r.channel, .inject, r.requester, false⟩ }
  | _ =>
    if q.gap = .pending then { q with gap := .converting, converting := some ⟨.bemf, .gap, .trc, false⟩ }
    else
      match q.queue, q.pass with
      | r :: rest, _ => { q with queue := rest, converting := some ⟨r.channel, .queue, r.requester, false⟩ }
      | [], c :: _ => { q with converting := some ⟨c, .scan, .scan, false⟩ }
      | [], [] => q

/-- The arbiter acts when the converter is IDLE (R118). -/
def arbitrate (q : Msq) : Msq :=
  match q.converting with
  | some _ => q
  | none => arbiterStart q

/-- A queue request: merged with an equal record, or joined at the tail, or refused at 8 records (R127). -/
def queueRequest (q : Msq) (r : Request) : Msq :=
  arbitrate
    (if r ∈ q.queue then q else if q.queue.length < 8 then { q with queue := q.queue ++ [r] } else q)

/-- An aborted QUEUE record returns to the head of the queue and stands for an equal record that joined since (R128). -/
def queuePutBack (queue : List Request) (r : Request) : List Request := r :: queue.filter (fun x => x ≠ r)

/-- An inject with cancel aborts a QUEUE or SCAN conversion and puts its work back (R122, R123). -/
def abortRoutine (q : Msq) : Msq :=
  match q.converting with
  | none => q
  | some c =>
    match c.source with
    | .queue => { q with converting := none, queue := queuePutBack q.queue ⟨c.channel, c.requester⟩ }
    | .scan => { q with converting := none }
    | .inject => q
    | .gap => q

/-- An inject request finds room: the slot is EMPTY (R121). -/
def injectRoom (q : Msq) : Bool := q.slot = .empty

/-- An inject request (R121, R122): taken into an empty slot and started as soon as R122 allows, else refused. -/
def injectRequest (q : Msq) (r : Inject) : Msq :=
  if injectRoom q then
    arbitrate (if r.cancel then abortRoutine { q with slot := .waiting r } else { q with slot := .waiting r })
  else q

/-- A block raises an inject request that finds room. What runs afterwards has sampled what its input still shows (R117,
R122). -/
def injectRaised (s : State) (r : Inject) : State :=
  (s.setMsq (injectRequest s.msq r)).setMbr { s.mbr with sample := .present }

/-- A gap is abandoned (R126): a running BEMF conversion gets the void mark, and the source becomes NONE. -/
def gapWithdraw (q : Msq) : Msq :=
  match q.gap with
  | .noRequest => q
  | .converting =>
    { q with gap := .noRequest, converting := q.converting.map (fun c => { c with void := true }) }
  | .offered => { q with gap := .noRequest }
  | .pending => { q with gap := .noRequest }

/-- MBR reports gap-ready: the source, OFFERED, becomes PENDING and the arbiter acts (R125). -/
def gapReady (q : Msq) : Msq :=
  if q.gap = .offered then arbitrate { q with gap := .pending } else q

/-- The channels of SCAN_SET in ascending order, without channel 1 (R129). -/
def scanChannels (scanSet : Nat) : List Channel :=
  channels.filter (fun c => c ≠ .bemf && scanSet / 2 ^ channelNumber c % 2 = 1)

/-- The scan timer expires (R129, R130): it restarts, and an IDLE pass is formed anew. -/
def scanExpiry (q : Msq) (scanSet period : Nat) : Msq :=
  let q := { q with scanTimer := some (period * 1000) }
  if q.pass.isEmpty then arbitrate { q with pass := scanChannels scanSet } else q

/-- The scan timer expires (R129, R131); a stopped timer cannot. -/
def scanExpires (s : State) : State :=
  if s.msq.scanTimer.isSome then s.setMsq (scanExpiry s.msq s.scanSet s.scanPeriod) else s

/-- The result table with a channel's entry overwritten (R119). -/
def resultWrite (results : List Nat) (c : Channel) (code : Nat) : List Nat := setAt results (channelNumber c) code

/-- The entry of a channel in the result table. -/
def resultOf (q : Msq) (c : Channel) : Nat := q.results.getD (channelNumber c) 0

/-- Steps 1 and 2 of R119 at MSQ and the freeing of what the conversion held: the result table is written, the converter
becomes IDLE, an inject slot becomes EMPTY, the gap source NONE, and a scanned channel is struck from the pass. -/
def conversionTaken (q : Msq) (c : Conversion) (code : Nat) : Msq :=
  let q := { q with results := resultWrite q.results c.channel code, converting := none }
  match c.source with
  | .inject => { q with slot := .empty }
  | .gap => { q with gap := .noRequest }
  | .queue => q
  | .scan => { q with pass := q.pass.filter (fun x => x ≠ c.channel) }

end Sys2Proof.Machine
end

