-- ==== Sys2Proof/Machine/Bridge.lean ====
section
/-!
DEFINITION. The motor bridge (chapter 6): PWM periods, demands from TRC, the measurement gap, and the switches.
-/
namespace Sys2Proof.Machine

/-! ### PWM (R101, R102) -/

/-- The length of a period in nanoseconds by PWM_FREQ (R102). -/
def pwmLength (freq : Nat) : Nat :=
  match freq with
  | 0 => 10000000
  | 1 => 50000
  | _ => 31250

/-- A new PWM period starts, at the length PWM_FREQ gives and at the demanded duty, with its high side free to close
(R102). -/
def startPeriod (s : State) : State :=
  s.setMbr { s.mbr with applied := s.mbr.demanded, periods := s.mbr.periods + 1,
                        period := some { ordinal := s.mbr.periods + 1, length := pwmLength s.pwmFreq, past := 0,
                                         demands := 0, opened := false } }

/-- A switch of the bridge. -/
inductive Switch where
  | highA
  | lowA
  | highB
  | lowB
  deriving DecidableEq, Repr

/-- A period is in its on-time: no at-once demand has opened its high side, and the time since its start is short of its
length × the applied duty / 1023 (R101, R102). That an on-time which has run out begins again under an at-once demand with
a longer one is a reading of R102 (notes/assumptions/19). -/
def inOnTime (m : Mbr) (elapsed : Nat) : Bool :=
  match m.period with
  | none => false
  | some p => !p.opened && elapsed * 1023 < p.length * m.applied

/-- The switches that are closed now, `elapsed` nanoseconds after the start of the period now running (R101). -/
def closedSwitches (m : Mbr) (elapsed : Nat) : List Switch :=
  match m.bridge with
  | .drive =>
    if inOnTime m elapsed then
      match m.drive with
      | .fwd => [.highA, .lowB]
      | .rev => [.highB, .lowA]
    else []
  | .brake => [.lowA, .lowB]
  | .off => []
  | .gap => []
  | .tripped => []

/-! ### Entering and leaving DRIVE -/

/-- The trip-free time, 2 s (R114). -/
def tripFreeTime : Nat := 2000000

/-- The retry wait, 100 ms (R112). -/
def retryTime : Nat := 100000

/-- A conversion of MOTOR_I is running. -/
def motorConverting (q : Msq) : Bool := q.converting.map (fun c => c.channel) = some .motorI

/-- A conversion of MOTOR_I is running that has sampled what the current sense shows. -/
def presentSampled (s : State) : Bool := motorConverting s.msq && s.mbr.sample = .present

/-- The current sense begins to hold, with a trip (R110). A conversion already running has sampled what it showed before
(R117). -/
def holdBegun (s : State) : State :=
  s.setMbr { s.mbr with currentHold := true, heldCode := none,
                        sample := if presentSampled s then .own else s.mbr.sample }

/-- What a conversion that has sampled the held current reads once the hold has ended. -/
def sampleOfHold (m : Mbr) : MotorSample :=
  match m.heldCode with
  | some code => .held code
  | none => .own

/-- The hold of the current sense is released (R110). A conversion already running has sampled what was held (R117). -/
def holdReleased (s : State) : State :=
  s.setMbr { s.mbr with currentHold := false, heldCode := none,
                        sample := if s.mbr.currentHold && presentSampled s then sampleOfHold s.mbr
                                  else s.mbr.sample }

/-- The bridge enters DRIVE: TRIP_LEVEL is read, the current hold is released and a period starts (R109, R110, R102). -/
def bridgeDrive (s : State) : State :=
  startPeriod (holdReleased (s.setMbr { s.mbr with bridge := .drive, tripLevel := s.tripLevelSetting }))

/-- The bridge enters DRIVE from OFF, BRAKE or TRIPPED, which also starts the trip-free timer (R114). -/
def bridgeStart (s : State) : State :=
  let s := bridgeDrive s
  s.setMbr { s.mbr with tripFreeTimer := some tripFreeTime }

/-- The bridge enters OFF, BRAKE or TRIPPED: no period runs, nothing is applied, the trip-free timer stops (R103). -/
def bridgeStop (s : State) (b : Bridge) : State :=
  s.setMbr { s.mbr with bridge := b, applied := 0, period := none, tripFreeTimer := none }

/-- A gap that MBR has taken is abandoned (R108): MSQ withdraws the request and TRC is told (R126, R80). -/
def abandonGap (s : State) : State :=
  if s.mbr.gap = .noGap then s
  else
    ((s.setMbr { s.mbr with gap := .noGap, settleTimer := none }).setMsq (gapWithdraw s.msq)).setTrc
      { s.trc with outstanding := false }

/-- The trip ends with the retry timer stopped (R115). -/
def endTrip (s : State) : State := s.setMbr { s.mbr with retryTimer := none }

/-- The bridge is stopped for OFF. -/
def bridgeOff (s : State) : State := bridgeStop s .off

/-- The emergency stop is carried out as BRAKE or OFF by EMERG_MODE; BRAKE releases the current hold (R103, R110). -/
def bridgeEmergency (s : State) : State :=
  if s.emergBrakes then holdReleased (bridgeStop s .brake) else bridgeStop s .off

/-! ### Demands (R102 to R104) -/

/-- A demand whose mode differs, or that asks for EMERGENCY_STOP, by the bridge state (R103). -/
def takeMode (s : State) (m : Mode) : State :=
  match s.mbr.bridge, m with
  | .off, .off => s
  | .off, .emergencyStop => bridgeEmergency s
  | .off, .drive => bridgeStart s
  | .drive, .off => bridgeOff (abandonGap s)
  | .drive, .emergencyStop => bridgeEmergency (abandonGap s)
  | .drive, .drive => s
  | .gap, .off => bridgeOff (abandonGap s)
  | .gap, .emergencyStop => bridgeEmergency (abandonGap s)
  | .gap, .drive => s
  | .brake, .off => bridgeOff s
  | .brake, .emergencyStop => s
  | .brake, .drive => bridgeStart s
  | .tripped, .off => bridgeOff (endTrip s)
  | .tripped, .emergencyStop => bridgeEmergency (endTrip s)
  | .tripped, .drive => s

/-- A demand that changes the direction alone, by the bridge state (R104). -/
def takeDirection (s : State) : State :=
  match s.mbr.bridge with
  | .drive => startPeriod (abandonGap s)
  | .gap => bridgeDrive (abandonGap s)
  | .off => s
  | .brake => s
  | .tripped => s

/-- The time past in a period when it takes an at-once demand: a free value, not before the one that it took last, and
short of the period's end (notes/assumptions/19). -/
def timePast (p : PwmPeriod) : Nat := p.past + Config.timePassed p.ordinal p.demands % (p.length - p.past)

/-- A period takes an at-once demand: the high side opens, for the rest of the period, if the time past is at or beyond
the new on-time (R102). -/
def dutyTakenAtOnce (p : PwmPeriod) (duty : Nat) : PwmPeriod :=
  { p with past := timePast p, demands := p.demands + 1,
           opened := p.opened || p.length * duty ≤ timePast p * 1023 }

/-- A demand that asks for its duty at once replaces the applied duty of a bridge in DRIVE, and with it the on-time of the
period running (R102). -/
def takeDutyAtOnce (s : State) : State :=
  if s.mbr.bridge = .drive then
    s.setMbr { s.mbr with applied := s.mbr.demanded,
                          period := s.mbr.period.map (fun p => dutyTakenAtOnce p s.mbr.demanded) }
  else s

/-- MBR takes a demand: it keeps the mode, direction and duty, and compares them with what it held. -/
def takeDemand (s : State) (m : Mode) (d : Dir) (duty : Nat) (atOnce : Bool) : State :=
  let modeTaken := m ≠ s.mbr.mode || m = .emergencyStop
  let turned := d ≠ s.mbr.drive
  let s := s.setMbr { s.mbr with mode := m, drive := d, demanded := duty }
  if modeTaken then takeMode s m
  else if turned then takeDirection s
  else if atOnce then takeDutyAtOnce s
  else s

/-! ### The measurement gap (R105 to R107) -/

/-- MSQ passes a gap request to MBR, which takes it or refuses it at once (R105, R124). -/
def gapOffer (s : State) : State :=
  match s.mbr.bridge with
  | .drive =>
    let s := s.setMsq { s.msq with gap := .offered }
    if s.mbr.gap = .noGap then s.setMbr { s.mbr with gap := .pending } else s
  | .gap => s.setMsq { s.msq with gap := .offered }
  | .off => s.setTrc { s.trc with outstanding := false }
  | .brake => s.setTrc { s.trc with outstanding := false }
  | .tripped => s.setTrc { s.trc with outstanding := false }

/-- A PWM period ends in DRIVE: a pending gap begins, else a new period starts (R102, R106). -/
def periodEnd (s : State) : State :=
  if s.mbr.bridge = .drive then
    if s.mbr.gap = .pending then
      s.setMbr { s.mbr with bridge := .gap, gap := .settling, applied := 0, period := none,
                            settleTimer := some (s.gapSettle * 100) }
    else startPeriod s
  else s

/-- The settle timer expires: the gap is READY, and MSQ's gap source becomes pending (R106, R125). -/
def settleExpiry (s : State) : State :=
  if s.mbr.settleTimer.isSome then
    (s.setMbr { s.mbr with gap := .ready, settleTimer := none }).setMsq (gapReady s.msq)
  else s

/-- MSQ reports the completion of the BEMF conversion of a gap that is READY: the gap ends (R107). -/
def gapEnd (s : State) : State :=
  if s.mbr.gap = .ready then bridgeDrive (s.setMbr { s.mbr with gap := .noGap }) else s

end Sys2Proof.Machine
end

