-- ==== Sys2Proof/Machine/Flags.lean ====
section
/-!
DEFINITION. The flags and conditions that are worked out from the state: TRC's conditions (R98), the load and LOADED
(R83), the stall test (R94), and the flags and codes of the status record (R35).
-/
namespace Sys2Proof.Machine

/-- Vint: the ramp value in whole speed units. -/
def vint (t : Trc) : Nat := t.ramp / 64

/-- The effective target of the present state (Table 5-1). -/
def effectiveTarget (t : Trc) : Nat :=
  match t.state with
  | .idle => t.target
  | .running => t.target
  | .reversing => 0
  | .failsafe => 0
  | .tripped => if t.armed && t.stated = t.drive then t.target else 0
  | .emergency => 0
  | .lockout => 0
  | .stalled => 0
  | .suspended => 0

/-- TRC's conditions as R98 works them out. -/
def tractionConditions (t : Trc) : TractionConditions :=
  { moving := 0 < t.ramp
    accelerating := t.ramp < 64 * effectiveTarget t
    decelerating := 64 * effectiveTarget t < t.ramp
    loaded := t.loaded
    stalled := t.state = .stalled }

/-- The state is RUNNING or REVERSING. -/
def underRegulation (t : Trc) : Bool := t.state = .running || t.state = .reversing

/-- The bound B on the duty (R79). -/
def dutyBound (t : Trc) : Nat := min 1023 t.dcap

/-- The load L and LOADED, with its hysteresis, worked out anew (R83). It reads REG_ON as the settings in force have it, at a
change of Dcap between a SETTINGS commit and the next tick too (DESIGN CHOICE, notes/assumptions/23). -/
def workOutLoad (s : State) : State :=
  let l := if s.regOn && 0 < vint s.trc then clampInt ((s.trc.duty : Int) - vint s.trc) 0 255 else 0
  s.setTrc { s.trc with load := l,
                        loaded := if s.loadOn ≤ l then true else if l ≤ s.loadOff then false else s.trc.loaded }

/-- The stall test holds (R94). It reads REG_ON as the settings in force have it, at a change of Dcap or of the traction state
between a SETTINGS commit and the next tick too (DESIGN CHOICE, notes/assumptions/23). -/
def stallTest (s : State) : Bool :=
  underRegulation s.trc && s.regOn && s.stallDuty ≤ s.trc.duty && s.trc.speed ≤ s.stallSpeed

/-- The conditions under which the back-EMF timer runs (R78). -/
def bemfConditions (s : State) : Bool := s.regOn && 0 < s.trc.ramp && underRegulation s.trc

/-- A condition bit by its number, C0 to C7 (Table 4-1). -/
def conditionAt (c : Conditions) (n : Nat) : Bool :=
  match n with
  | 0 => c.moving
  | 1 => c.accelerating
  | 2 => c.decelerating
  | 3 => c.loaded
  | 4 => c.signalLost
  | 5 => c.coasting
  | 6 => c.stalled
  | 7 => c.smokeReady
  | _ => false

/-- One bit of weight 2^n. -/
def flagBit (b : Bool) (n : Nat) : Nat := if b then 2 ^ n else 0

/-- The power state's code in byte 0 of the status record. -/
def powerCode (p : PowerState) : Nat :=
  match p with
  | .init => 0
  | .normal => 1
  | .coast => 2
  | .hold => 3

/-- The active source's code in byte 0. -/
def activeCode (a : Active) : Nat :=
  match a with
  | .noSource => 0
  | .track => 1
  | .battery => 2
  | .buffer => 3

/-- The traction state's code in byte 1. -/
def tractionCode (t : Traction) : Nat :=
  match t with
  | .idle => 0
  | .running => 1
  | .reversing => 2
  | .failsafe => 3
  | .emergency => 4
  | .tripped => 5
  | .lockout => 6
  | .stalled => 7
  | .suspended => 8

/-- The smoke state's code in byte 2. -/
def smokeCode (t : SmokeState) : Nat :=
  match t with
  | .off => 0
  | .heating => 1
  | .ready => 2
  | .suspended => 3
  | .fault => 4

/-- The reset cause's code in byte 11. -/
def resetCode (k : ResetKind) : Nat :=
  match k with
  | .powerOn => 0
  | .brownout => 1
  | .command => 2
  | .factory => 3

/-- The link flags of byte 12. -/
def linkFlags (c : Cli) : Nat :=
  flagBit c.truncated 0 + flagBit c.frameDropped 1 + flagBit c.replyDropped 2 + flagBit c.relayDisplaced 3

/-- The fault flags of byte 13. -/
def faultFlags (s : State) : Nat :=
  flagBit s.tbs.defaulted 0 + flagBit s.snd.underrun 1 + flagBit s.smk.dry 2 + flagBit s.mbr.lockoutShort 3

/-- The 16-byte status record (R35). -/
def statusRecord (s : State) : List Byte :=
  [toByte (powerCode s.ppm.power * 16 + activeCode s.ppm.active),
   toByte (s.ppm.shed * 16 + tractionCode s.trc.state),
   toByte (flagBit s.trc.armed 7 + flagBit (s.trc.drive = .rev) 6 + flagBit (s.cam.source = .sensor) 5 +
     smokeCode s.smk.state),
   toByte s.trc.step] ++
  bytes16 (vint s.trc) ++ bytes16 s.mbr.applied ++ bytes16 s.trc.speed ++
  [toByte s.trc.load, toByte (resetCode s.ppm.cause), toByte (linkFlags s.cli), toByte (faultFlags s),
   toByte s.cli.checkErrors, toByte (resultOf s.msq .boardT / 16)]

/-- The link flags and the check-error count are cleared at CLI (R16). -/
def clearLinkFlags (c : Cli) : Cli :=
  { c with truncated := false, frameDropped := false, replyDropped := false, relayDisplaced := false,
           checkErrors := 0 }

/-- The three read-clear fault flags are cleared at their owners (R36). -/
def clearFaultFlags (s : State) : State :=
  ((s.setSnd { s.snd with underrun := false }).setSmk { s.smk with dry := false }).setMbr
    { s.mbr with lockoutShort := false }

end Sys2Proof.Machine
end

