-- ==== Sys2Proof/Machine/Lamps.lean ====
section
/-!
DEFINITION. The lamp driver (sections 10.5 to 10.7).
-/
namespace Sys2Proof.Machine

/-- The power state shows no lamp: INIT or HOLD (R175). -/
def lampsDark (p : PowerState) : Bool := p = .init || p = .hold

/-- The effective brightness (R175). -/
def effectiveBrightness (r : LampRecord) (dim : Bool) : Nat := if dim then r.brightness / 2 else r.brightness

/-- The flicker level of an effective brightness (R176). -/
def flickerLevel (e : Nat) (reg : BitVec 16) : Nat := e * (32 + reg.toNat % 32) / 64

/-- The aim of an output (R175). -/
def lampAim (r : LampRecord) (o : Lamp) : Nat := if o.on then effectiveBrightness r o.dim else 0

/-- What an output shows while the power state shows lamps (the table of R175). -/
def lampLevel (r : LampRecord) (reg : BitVec 16) (o : Lamp) : Nat :=
  match o.effect with
  | .soft => o.soft
  | .steady => if o.on then effectiveBrightness r o.dim else 0
  | .flicker => if o.on then flickerLevel (effectiveBrightness r o.dim) reg else 0
  | .blink => if o.on && o.lit then effectiveBrightness r o.dim else 0

/-- The shown level worked out again (R175). -/
def lampShow (r : LampRecord) (reg : BitVec 16) (o : Lamp) : Lamp := { o with shown := lampLevel r reg o }

/-- The soft timer of a SOFT output runs while the soft level differs from the aim: a stopped timer starts, a running one
keeps its length (R178). -/
def softTimed (r : LampRecord) (o : Lamp) : Lamp :=
  if o.soft = lampAim r o then { o with softTimer := none }
  else
    match o.softTimer with
    | some _ => o
    | none => { o with softTimer := some (r.softStep * 1000) }

/-- A blink half-period in microseconds. -/
def blinkTime (r : LampRecord) : Nat := r.halfPeriod * 10000

/-- A demand on for an output whose effect was another, or whose demand was off: the old effect's timing is left and the
new effect entered (R175, R177, R178). The soft level of an output that was not SOFT starts from the level it shows
(notes/assumptions/10). -/
def lampEnter (r : LampRecord) (d : LampDemand) (o : Lamp) : Lamp :=
  let soft := if o.effect = .soft then o.soft else o.shown
  let o : Lamp := { o with on := true, effect := d.effect, dim := d.dim, blinkTimer := none, softTimer := none }
  match d.effect with
  | .steady => o
  | .flicker => o
  | .blink => { o with lit := true, blinkTimer := some (blinkTime r) }
  | .soft => softTimed r { o with soft := soft }

/-- A demand on for an output that has the effect and is on: only the dim flag can change (R177, R178). -/
def lampRedim (r : LampRecord) (d : LampDemand) (o : Lamp) : Lamp :=
  let o : Lamp := { o with dim := d.dim }
  if o.effect = .soft then softTimed r o else o

/-- A demand off: BLINK stops its timer, SOFT fades (R175, R177, R178). -/
def lampOff (r : LampRecord) (o : Lamp) : Lamp :=
  let o : Lamp := { o with on := false, blinkTimer := none }
  if o.effect = .soft then softTimed r o else o

/-- A lamp demand taken while the power state shows lamps (R175). -/
def lampTake (r : LampRecord) (reg : BitVec 16) (d : Option LampDemand) (o : Lamp) : Lamp :=
  lampShow r reg
    (match d with
      | none => lampOff r o
      | some d => if o.on && o.effect = d.effect then lampRedim r d o else lampEnter r d o)

/-- A lamp demand kept while the power state shows none (R179). -/
def lampKeep (d : Option LampDemand) (o : Lamp) : Lamp :=
  match d with
  | none => { o with on := false }
  | some d => { o with on := true, effect := d.effect, dim := d.dim }

/-- One output replaced. -/
def setLamp (s : State) (n : Nat) (o : Lamp) : State := s.setLmp { s.lmp with outputs := setAt s.lmp.outputs n o }

/-- An output. -/
def lampAt (l : Lmp) (n : Nat) : Lamp := l.outputs.getD n lampReset

/-- FNU delivers a lamp demand (R63, R175, R179). -/
def lampDemanded (s : State) (n : Nat) (d : Option LampDemand) : State :=
  let o := lampAt s.lmp n
  setLamp s n (if lampsDark s.lmp.power then lampKeep d o else lampTake (s.lampRecord n) s.lmp.flicker d o)

/-- INIT or HOLD: an output goes dark, its timers stop and its soft level is 0 (R179). -/
def lampDarkened (o : Lamp) : Lamp := { o with shown := 0, blinkTimer := none, softTimer := none, soft := 0 }

/-- An output takes up its kept demand as if it were delivered now to a dark output (R179). -/
def lampRestored (r : LampRecord) (reg : BitVec 16) (o : Lamp) : Lamp :=
  if o.on then lampTake r reg (some { effect := o.effect, dim := o.dim }) { lampDarkened o with on := false }
  else lampDarkened o

/-- Every output changed by its number. -/
def mapLamps (f : Nat → Lamp → Lamp) (n : Nat) (l : List Lamp) : List Lamp :=
  match l with
  | [] => []
  | o :: rest => f n o :: mapLamps f (n + 1) rest

/-- PPM announces a power state to LMP (R179). -/
def lampsPower (s : State) (p : PowerState) : State :=
  let l : Lmp := { s.lmp with power := p }
  if lampsDark p then s.setLmp { l with outputs := l.outputs.map lampDarkened }
  else if lampsDark s.lmp.power then
    s.setLmp { l with outputs := mapLamps (fun n => lampRestored (s.lampRecord n) l.flicker) 0 l.outputs }
  else s.setLmp l

/-- An output under new records, while the power state shows lamps (R180). -/
def lampRerecorded (r : LampRecord) (reg : BitVec 16) (o : Lamp) : Lamp :=
  lampShow r reg (if o.effect = .soft then softTimed r o else o)

/-- TBS has installed a LAMPS table (R180). -/
def lampsInstalled (s : State) : State :=
  if lampsDark s.lmp.power then s
  else
    s.setLmp { s.lmp with
      outputs := mapLamps (fun n => lampRerecorded (s.lampRecord n) s.lmp.flicker) 0 s.lmp.outputs }

/-- The flicker register after an advance: the exclusive-or of bits 0, 2, 3 and 5 enters at bit 15 (R176). -/
def flickerNext (reg : BitVec 16) : BitVec 16 :=
  let bit := ((reg.getLsbD 0 ^^ reg.getLsbD 2) ^^ reg.getLsbD 3) ^^ reg.getLsbD 5
  (reg >>> 1) ||| (if bit then 0x8000 else 0)

/-- An output at an advance: one that is on and FLICKER takes its new level (R176). -/
def lampFlickered (r : LampRecord) (reg : BitVec 16) (o : Lamp) : Lamp :=
  if o.on && o.effect = .flicker then lampShow r reg o else o

/-- The flicker generator advances, in every power state (R176, R179). -/
def flickerStep (s : State) : State :=
  let l : Lmp := { s.lmp with flicker := flickerNext s.lmp.flicker }
  if lampsDark l.power then s.setLmp l
  else s.setLmp { l with outputs := mapLamps (fun n => lampFlickered (s.lampRecord n) l.flicker) 0 l.outputs }

/-- An output's blink half-period ends (R177). -/
def lampBlinked (r : LampRecord) (reg : BitVec 16) (o : Lamp) : Lamp :=
  lampShow r reg { o with lit := !o.lit, blinkTimer := some (blinkTime r) }

/-- The blink timer of an output expires (R177). -/
def blinkExpiry (s : State) (n : Nat) : State :=
  let o := lampAt s.lmp n
  if o.blinkTimer.isSome then setLamp s n (lampBlinked (s.lampRecord n) s.lmp.flicker o) else s

/-- The soft level moved one step toward its aim (R178). -/
def softMoved (level aim : Nat) : Nat :=
  if level < aim then level + 1 else if aim < level then level - 1 else level

/-- An output's soft step time ends (R178): the level moves, and the timer restarts unless the aim is reached. -/
def lampSoftened (r : LampRecord) (reg : BitVec 16) (o : Lamp) : Lamp :=
  lampShow r reg (softTimed r { o with soft := softMoved o.soft (lampAim r o), softTimer := none })

/-- The soft timer of an output expires (R178). -/
def softExpiry (s : State) (n : Nat) : State :=
  let o := lampAt s.lmp n
  if o.softTimer.isSome then setLamp s n (lampSoftened (s.lampRecord n) s.lmp.flicker o) else s

end Sys2Proof.Machine
end

