-- ==== Sys2Proof/Machine/Smoke.lean ====
section
/-!
DEFINITION. The smoke controller (sections 10.1 to 10.4).
-/
namespace Sys2Proof.Machine

/-- The end of an event at SMK: a change of SMOKE_READY is published (R57, R167). -/
def smokeEnd (before : SmokeState) (s : State) : State :=
  if (decide (s.smk.state = .ready)) ≠ (decide (before = .ready)) then
    publish s (.smokeReady (s.smk.state = .ready))
  else s

/-- SMK places a SMOKE_T request with MSQ's queue (R168). -/
def smokeRequest (s : State) : State := s.setMsq (queueRequest s.msq ⟨.smokeT, .smk⟩)

/-- The request period, 100 ms. -/
def smokeRequestTime : Nat := 100000

/-- The age limit of a temperature, 500 ms. -/
def smokeAgeTime : Nat := 500000

/-- A HEATING or READY unit becomes SUSPENDED: heater off, fan idle, any puff ended (R171). -/
def smokeSuspended (k : Smk) (fanIdle : Nat) : Smk :=
  { k with state := .suspended, heater := 0, fan := fanIdle, puffTimer := none }

/-- The smoke state is HEATING or READY. -/
def smokeRegulates (k : Smk) : Bool := k.state = .heating || k.state = .ready

/-- The heater duty worked out from a temperature (step 4 of R169). -/
def heaterDuty (target gain hmax tm : Nat) : Nat := clampInt (((target : Int) - tm) * gain / 16) 0 hmax

/-- Smoke enable is delivered on (R167). -/
def smokeEnableOn (s : State) : State :=
  if s.smk.state = .off then
    let k : Smk := { s.smk with enable := true, state := .heating, temperature := none, fresh := false, heater := 0,
                                requestTimer := some smokeRequestTime, fan := s.fanIdle }
    smokeEnd s.smk.state (smokeRequest (s.setSmk (if k.hmax = 0 then smokeSuspended k s.fanIdle else k)))
  else s.setSmk { s.smk with enable := true }

/-- Smoke enable is delivered off (R167). -/
def smokeEnableOff (s : State) : State :=
  if s.smk.state = .off then s.setSmk { s.smk with enable := false }
  else
    smokeEnd s.smk.state
      (s.setSmk { s.smk with enable := false, state := .off, heater := 0, fan := 0, requestTimer := none,
                             ageTimer := none, puffTimer := none })

/-- FNU delivers smoke enable (R64, R167). -/
def smokeEnable (s : State) (on : Bool) : State := if on then smokeEnableOn s else smokeEnableOff s

/-- Dry firing (R170). -/
def smokeFault (k : Smk) : Smk :=
  { k with state := .fault, heater := 0, fan := 0, requestTimer := none, ageTimer := none, puffTimer := none,
           dry := true }

/-- A temperature counts as ready: SMK_TARGET − SMK_BAND or more (step 3 of R169). -/
def smokeReadyAt (s : State) (tm : Nat) : Bool := s.smkTarget ≤ tm + s.smkBand

/-- Steps 3 and 4 of R169 in HEATING and READY; leaving READY ends a puff. -/
def smokeRegulated (s : State) (k : Smk) (tm : Nat) : Smk :=
  let k := { k with heater := heaterDuty s.smkTarget s.smkGain k.hmax tm }
  if smokeReadyAt s tm then { k with state := .ready }
  else if k.state = .ready then { k with state := .heating, fan := s.fanIdle, puffTimer := none }
  else k

/-- A temperature result taken in HEATING, READY or SUSPENDED (R169). -/
def smokeTaken (s : State) (tm : Nat) : Smk :=
  let k : Smk := { s.smk with temperature := some tm, fresh := true, ageTimer := some smokeAgeTime }
  if s.smkDry ≤ tm then smokeFault k
  else if smokeRegulates k then smokeRegulated s k tm
  else k

/-- MSQ delivers a SMOKE_T result (R169). -/
def smokeResult (s : State) (tm : Nat) : State :=
  match s.smk.state with
  | .off => s
  | .fault => s
  | _ => smokeEnd s.smk.state (s.setSmk (smokeTaken s tm))

/-- SUSPENDED is left for HEATING under a new cap; H is worked out at once from a fresh temperature (R171). -/
def smokeResumed (s : State) (k : Smk) : Smk :=
  { k with state := .heating,
           heater := match k.fresh, k.temperature with
             | true, some tm => heaterDuty s.smkTarget s.smkGain k.hmax tm
             | _, _ => 0 }

/-- PPM publishes Hmax to SMK (R171). -/
def smokeCap (s : State) (hmax : Nat) : State :=
  let k : Smk := { s.smk with hmax := hmax }
  let k :=
    if smokeRegulates k then
      if hmax = 0 then smokeSuspended k s.fanIdle else { k with heater := min k.heater hmax }
    else if k.state = .suspended && 0 < hmax then smokeResumed s k
    else k
  smokeEnd s.smk.state (s.setSmk k)

/-- The fan duty that a power announcement leaves to a smoke state that is not regulating (R173). -/
def smokeFanAt (s : State) (k : Smk) : Nat := if k.state = .suspended then s.fanIdle else 0

/-- PPM announces a power state to SMK (R173). -/
def smokePower (s : State) (p : PowerState) : State :=
  let k : Smk := { s.smk with power := p }
  let k :=
    if smokeRegulates k then (if p = .normal then { k with fan := s.fanIdle, puffTimer := none } else smokeSuspended k s.fanIdle)
    else { k with fan := smokeFanAt s k }
  smokeEnd s.smk.state (s.setSmk k)

/-- The duty of the FAN line: 0 in INIT and HOLD whatever the fan duty (R173). -/
def fanLine (k : Smk) : Nat :=
  match k.power with
  | .init => 0
  | .hold => 0
  | _ => k.fan

/-- SMK acts on a chuff event: READY, and the power state NORMAL or COAST (R172). -/
def smokePuffs (k : Smk) : Bool := k.state = .ready && (k.power = .normal || k.power = .coast)

/-- A chuff event reaches SMK (R172). -/
def smokeChuff (s : State) : State :=
  if smokePuffs s.smk then
    s.setSmk { s.smk with fan := min 255 (s.fanPuff + s.trc.load / 4), puffTimer := some (s.puffTime * 10000) }
  else s

/-! ### Timers (R168, R172) -/

/-- The request timer expires: it restarts, and a SMOKE_T request is placed (R168). -/
def smokeRequestExpiry (s : State) : State :=
  if s.smk.requestTimer.isSome then
    smokeRequest (s.setSmk { s.smk with requestTimer := some smokeRequestTime })
  else s

/-- The age timer expires: the age is STALE and H is 0 (R168). -/
def smokeAgeExpiry (s : State) : State :=
  if s.smk.ageTimer.isSome then s.setSmk { s.smk with ageTimer := none, fresh := false, heater := 0 } else s

/-- The puff timer expires: the fan returns to FAN_IDLE (R172). -/
def puffExpiry (s : State) : State :=
  if s.smk.puffTimer.isSome then s.setSmk { s.smk with puffTimer := none, fan := s.fanIdle } else s

end Sys2Proof.Machine
end

