-- ==== Sys2Proof/Machine/Sound.lean ====
section
/-!
DEFINITION. The sound engine (chapter 9): the voices, the pool and the resume stack, the mixer, and the writing of the
sample memory.
-/
namespace Sys2Proof.Machine

/-! ### Voices (R150, R153, R154) -/

/-- The engine state, worked out from mute and the power state (R152). -/
def engineOn (mute : Bool) (p : PowerState) : Bool := !mute && (p = .normal || p = .coast)

/-- A voice that starts a cue (R150). -/
def voiceStart (c position volume order : Nat) (held : Bool) : Voice :=
  { cue := some c, position := position, held := held, volume := volume, order := order }

/-- The volume of the chuff voice: the record volume and the load term, at most 255 (R153). -/
def chuffVolume (s : State) (r : CueRecord) : Nat := min 255 (r.volume + s.trc.load * s.loadGain / 256)

/-- The selected background cue (R154), by MOVING as TRC has published it (notes/assumptions/17). -/
def selectedBackground (s : State) : Nat := if s.trc.published.moving then s.bgRunCue else s.bgIdleCue

/-- The background voice after a choice: the selected cue from its start, held, or idle (R154, R155). That an idle one takes
the position, held state and volume of reset, and that the background voice has the start order 0, is a DESIGN CHOICE
(notes/assumptions/15). -/
def backgroundChoice (s : State) : Voice :=
  let c := selectedBackground s
  if s.cueEmpty c then voiceFree else voiceStart c 0 (s.cueRecord c).volume 0 true

/-- Every voice stopped and the resume stack emptied (R152, R164). -/
def soundStopped (n : Snd) : Snd :=
  { n with chuff := voiceFree, background := voiceFree, pool := n.pool.map (fun _ => voiceFree), stack := [] }

/-- The engine state is worked out again; entering OFF stops all, entering ON starts the background voice (R152). -/
def engineWork (s : State) : State :=
  let now := engineOn s.snd.mute s.snd.power
  if now = s.snd.on then s
  else if now then s.setSnd { s.snd with on := true, background := backgroundChoice s }
  else s.setSnd { soundStopped s.snd with on := false }

/-- FNU delivers mute (R64, R152). -/
def soundMute (s : State) (on : Bool) : State := engineWork (s.setSnd { s.snd with mute := on })

/-- PPM announces a power state to SND (R152). -/
def soundPower (s : State) (p : PowerState) : State := engineWork (s.setSnd { s.snd with power := p })

/-- PPM publishes the sound cap to SND (R162). -/
def soundCapTaken (s : State) (cap : Nat) : State := s.setSnd { s.snd with cap := cap }

/-- TBS has installed a CUES table (R164). -/
def cuesInstalled (s : State) : State :=
  let s := s.setSnd (soundStopped s.snd)
  if s.snd.on then s.setSnd { s.snd with background := backgroundChoice s } else s

/-- A chuff event reaches SND (R153). -/
def soundChuff (s : State) (index : Nat) : State :=
  let c := s.chuffCue + index
  if s.snd.on && !s.cueEmpty c then
    s.setSnd { s.snd with chuff := voiceStart c 0 (chuffVolume s (s.cueRecord c)) 0 false }
  else s

/-! ### The pool and the resume stack (R156 to R160) -/

/-- The pool voice that plays a cue, by its place in the pool. -/
def poolPlaying (pool : List Voice) (c : Nat) : Option Nat := pool.findIdx? (fun v => v.cue = some c)

/-- The lowest-numbered free pool voice. -/
def poolFree (pool : List Voice) : Option Nat := pool.findIdx? (fun v => v.cue = none)

/-- The weight of a pool voice as a victim: the priority of its cue, then its start order (R157). -/
def victimWeight (s : State) (v : Voice) : Nat × Nat := ((s.cueRecord (v.cue.getD 64)).priority, v.order)

/-- One weight comes before another: a lower priority, or an equal one started earlier (R157). -/
def weightBefore (a b : Nat × Nat) : Bool := a.1 < b.1 || (a.1 = b.1 && a.2 < b.2)

/-- The victim among the voices from place `n` on, against the best so far (R157). -/
def victimFrom (s : State) (n best : Nat) (w : Nat × Nat) (pool : List Voice) : Nat :=
  match pool with
  | [] => best
  | v :: rest =>
    if weightBefore (victimWeight s v) w then victimFrom s (n + 1) n (victimWeight s v) rest
    else victimFrom s (n + 1) best w rest

/-- The victim of a contest, by its place in the pool (R157). -/
def victim (s : State) : Nat :=
  match s.snd.pool with
  | [] => 0
  | v :: rest => victimFrom s 1 0 (victimWeight s v) rest

/-- A push on the resume stack: at 4 entries the bottom one, the oldest, is discarded first (R159). -/
def stackPush (stack : List Nat) (c : Nat) : List Nat := c :: stack.take 3

/-- A cue removed from wherever it stands on the resume stack (R159). -/
def stackRemove (stack : List Nat) (c : Nat) : List Nat := stack.filter (fun x => x ≠ c)

/-- A pool voice starts a cue, as the newest start (R156, R157). -/
def poolStart (s : State) (place c position : Nat) (held : Bool) : State :=
  s.setSnd { s.snd with
    pool := setAt s.snd.pool place (voiceStart c position (s.cueRecord c).volume s.snd.nextOrder held)
    nextOrder := s.snd.nextOrder + 1 }

/-- A pool voice's state by its place. -/
def poolVoice (n : Snd) (place : Nat) : Voice := n.pool.getD place voiceFree

/-- A preempted cue that is LOOP and held goes on the resume stack; any other is dropped (R157). -/
def pushPreempted (s : State) (v : Voice) : State :=
  match v.cue with
  | some c =>
    if (s.cueRecord c).loop && v.held then s.setSnd { s.snd with stack := stackPush s.snd.stack c } else s
  | none => s

/-- The contest for a pool that is all playing (R157). -/
def poolContest (s : State) (c : Nat) : State :=
  let place := victim s
  let v := poolVoice s.snd place
  if (s.cueRecord (v.cue.getD 64)).priority < (s.cueRecord c).priority then
    poolStart (pushPreempted s v) place c 0 true
  else if (s.cueRecord c).loop then s.setSnd { s.snd with stack := stackPush s.snd.stack c }
  else s

/-- Steps 2 to 4 of R156. -/
def poolPlace (s : State) (c : Nat) : State :=
  let s := s.setSnd { s.snd with stack := stackRemove s.snd.stack c }
  match poolFree s.snd.pool with
  | some place => poolStart s place c 0 true
  | none => poolContest s c

/-- FNU delivers a trigger (R156). -/
def soundTrigger (s : State) (c : Nat) : State :=
  if s.snd.on && !s.cueEmpty c then
    match poolPlaying s.snd.pool c with
    | some place => poolStart s place c 0 true
    | none => poolPlace s c
  else s

/-- FNU delivers a release (R158). -/
def soundRelease (s : State) (c : Nat) : State :=
  if s.snd.on then
    s.setSnd { s.snd with
      pool := s.snd.pool.map (fun v => if v.cue = some c then { v with held := false } else v)
      stack := stackRemove s.snd.stack c }
  else s

/-! ### Advancing a voice (R150, R151, R155, R160) -/

/-- How a voice stands after its sample has been played (R150). -/
inductive Advance where
  | onward
  | looped
  | finished
  deriving DecidableEq, Repr

/-- What the position after the sample means (steps 2 and 3 of R150). -/
def advanceKind (r : CueRecord) (v : Voice) : Advance :=
  if r.loop && v.held && v.position + 1 = r.loopEnd then .looped
  else if v.position + 1 = r.length then .finished
  else .onward

/-- The voice moved on within its cue (steps 1 and 2 of R150). -/
def voiceMoved (r : CueRecord) (v : Voice) : Voice :=
  match advanceKind r v with
  | .looped => { v with position := r.loopStart }
  | .onward => { v with position := v.position + 1 }
  | .finished => { v with position := v.position + 1 }

/-- The chuff voice whose cue has finished: it chains or becomes free (R151). -/
def chuffFinished (s : State) (r : CueRecord) : Voice :=
  match r.next with
  | none => voiceFree
  | some n => if s.cueEmpty n then voiceFree else voiceStart n 0 (chuffVolume s (s.cueRecord n)) 0 false

/-- The chuff voice is advanced (R150, R151). -/
def chuffAdvance (s : State) : State :=
  match s.snd.chuff.cue with
  | none => s
  | some c =>
    let r := s.cueRecord c
    s.setSnd { s.snd with
      chuff := if advanceKind r s.snd.chuff = .finished then chuffFinished s r else voiceMoved r s.snd.chuff }

/-- The background voice at its loop end: it goes on looping, or changes to the selected cue (R155). -/
def backgroundLooped (s : State) (r : CueRecord) (c : Nat) : Voice :=
  if selectedBackground s = c then voiceMoved r s.snd.background else backgroundChoice s

/-- The background voice is advanced (R150, R155). -/
def backgroundAdvance (s : State) : State :=
  match s.snd.background.cue with
  | none => s
  | some c =>
    let r := s.cueRecord c
    s.setSnd { s.snd with
      background := match advanceKind r s.snd.background with
        | .looped => backgroundLooped s r c
        | .finished => backgroundChoice s
        | .onward => voiceMoved r s.snd.background }

/-- A pool voice falls free: it resumes the top cue of the resume stack from its loop start, if there is one (R160). -/
def poolFallsFree (s : State) (place : Nat) : State :=
  match s.snd.stack with
  | [] => s.setSnd { s.snd with pool := setAt s.snd.pool place voiceFree }
  | c :: rest => poolStart (s.setSnd { s.snd with stack := rest }) place c (s.cueRecord c).loopStart true

/-- A cue plays in a pool voice other than the one at `place`. -/
def playsElsewhere (pool : List Voice) (place c : Nat) : Bool := (setAt pool place voiceFree).any (fun v => v.cue = some c)

/-- A pool voice whose cue has finished takes its next cue, in the cases of R151. -/
def poolFinished (s : State) (place : Nat) (v : Voice) (next : Option Nat) : State :=
  match next with
  | none => poolFallsFree s place
  | some n =>
    if s.cueEmpty n || playsElsewhere s.snd.pool place n then poolFallsFree s place
    else if n ∈ s.snd.stack then
      poolStart (s.setSnd { s.snd with stack := stackRemove s.snd.stack n }) place n 0 true
    else poolStart s place n 0 v.held

/-- A pool voice is advanced (R150, R151, R160). -/
def poolAdvance (s : State) (place : Nat) : State :=
  let v := poolVoice s.snd place
  match v.cue with
  | none => s
  | some c =>
    let r := s.cueRecord c
    if advanceKind r v = .finished then poolFinished s place v r.next
    else s.setSnd { s.snd with pool := setAt s.snd.pool place (voiceMoved r v) }

/-- Every playing voice is advanced, in ascending voice order (step 6 of R161). -/
def voicesAdvance (s : State) : State :=
  poolAdvance (poolAdvance (poolAdvance (poolAdvance (backgroundAdvance (chuffAdvance s)) 0) 1) 2) 3

/-! ### The mixer (R161, R163) -/

/-- A sample of a voice is in time: the device has answered, and no erase or program is in flight (R145, R148). -/
def sampleInTime (n : Snd) (inTime : BitVec 6) (voice : Nat) : Bool :=
  n.writeState = .idle && inTime.getLsbD voice

/-- The contribution of a voice: the floor of its sample times its volume, divided by 256; 0 when it plays nothing or its
sample is not in time (step 2 of R161, R163). -/
def contribution (s : State) (inTime : BitVec 6) (voice : Nat) (v : Voice) : Int :=
  match v.cue with
  | none => 0
  | some c =>
    if sampleInTime s.snd inTime voice then sampleAt s.samples (s.cueRecord c).start v.position * v.volume / 256 else 0

/-- A playing voice misses its sample (R163). -/
def voiceMisses (n : Snd) (inTime : BitVec 6) (voice : Nat) (v : Voice) : Bool :=
  v.cue.isSome && !sampleInTime n inTime voice

/-- The six voices with their numbers. -/
def numberedVoices (n : Snd) : List (Nat × Voice) :=
  (0, n.chuff) :: (1, n.background) :: (List.range 4).map (fun i => (i + 2, poolVoice n i))

/-- The sum of the six contributions (steps 2 and 3 of R161). -/
def mixSum (s : State) (inTime : BitVec 6) : Int :=
  ((numberedVoices s.snd).map (fun v => contribution s inTime v.1 v.2)).sum

/-- The master volume in use (step 4 of R161). -/
def masterVolume (s : State) : Nat := min s.volume s.snd.cap

/-- The output that a sum and a master volume give (step 4 of R161). -/
def mixOutput (sum : Int) (master : Nat) : Int := clampSigned16 (sum * master / 256)

/-- An idle background voice makes its choice (step 1 of R161). -/
def backgroundTakenUp (s : State) : State :=
  match s.snd.background.cue with
  | none => s.setSnd { s.snd with background := backgroundChoice s }
  | some _ => s

/-- An output sample (R161). -/
def outputSampled (s : State) (inTime : BitVec 6) : State :=
  if s.snd.on then
    let s := backgroundTakenUp s
    let missed := (numberedVoices s.snd).any (fun v => voiceMisses s.snd inTime v.1 v.2)
    voicesAdvance (s.setSnd { s.snd with
      master := masterVolume s
      output := mixOutput (mixSum s inTime) (masterVolume s)
      underrun := s.snd.underrun || missed })
  else s.setSnd { s.snd with output := 0 }

/-! ### Writing the sample memory (R146 to R148) -/

/-- The answer to SAMPLE_ERASE of a sector (R146). -/
def eraseAnswer (n : Snd) (sector : Nat) : ResultCode :=
  if n.on then .soundOn else if n.writeState ≠ .idle then .busy else if 4095 < sector then .range else .accepted

/-- The answer to SAMPLE_WRITE of `count` bytes at an address (R147). -/
def writeAnswer (n : Snd) (address count : Nat) : ResultCode :=
  if n.on then .soundOn
  else if n.writeState ≠ .idle then .busy
  else if 16777216 < address + count then .range
  else .accepted

/-- The erase in flight completes (R146). -/
def eraseDone (s : State) : State :=
  match s.snd.writeState with
  | .erasing sector => (s.setSamples (eraseSector s.samples sector)).setSnd { s.snd with writeState := .idle }
  | .idle => s
  | .programming _ _ => s

/-- The program in flight completes (R147). -/
def programDone (s : State) : State :=
  match s.snd.writeState with
  | .programming a data => (s.setSamples (programBytes s.samples a data)).setSnd { s.snd with writeState := .idle }
  | .idle => s
  | .erasing _ => s

/-- A reset interrupts the erase or program in flight: the bytes it was changing are left open (R148). -/
def sampleInterrupted (s : State) : State :=
  match s.snd.writeState with
  | .idle => s
  | .erasing sector =>
    (s.setSamples (eraseCutShort s.samples sector s.free)).setFree (s.free + 4096)
  | .programming a data => (s.setSamples (programCutShort s.samples a data s.free)).setFree (s.free + data.length)

end Sys2Proof.Machine
end

