-- ==== Sys2Proof/Machine/Traction.lean ====
section
/-!
DEFINITION. The traction controller (chapter 5): the target, the ramp, the regulator and the traction states, as what
each event that reaches TRC does. Every event ends with `tractionEnd`.
-/
namespace Sys2Proof.Machine

/-! ### The demand on MBR (R84) -/

/-- The mode that the traction state demands. -/
def demandedMode (t : Traction) : Mode :=
  match t with
  | .running => .drive
  | .reversing => .drive
  | .failsafe => .drive
  | .tripped => .drive
  | .emergency => .emergencyStop
  | .idle => .off
  | .lockout => .off
  | .stalled => .off
  | .suspended => .off

/-- The duty that the traction state demands. -/
def demandedDuty (t : Trc) : Nat :=
  match t.state with
  | .running => t.duty
  | .reversing => t.duty
  | .failsafe => t.duty
  | .tripped => 0
  | .emergency => 0
  | .idle => 0
  | .lockout => 0
  | .stalled => 0
  | .suspended => 0

/-- The demand is one that MBR does not hold already. -/
def demandChanged (s : State) : Bool :=
  demandedMode s.trc.state ≠ s.mbr.mode || s.trc.drive ≠ s.mbr.drive || demandedDuty s.trc ≠ s.mbr.demanded

/-- TRC hands MBR its demand when any part of it has changed (R84), or, after a fall of the cap, at once while it
demands DRIVE (R82, R102). -/
def handDemand (s : State) (atOnce : Bool) : State :=
  if demandChanged s || (atOnce && demandedMode s.trc.state = .drive) then
    takeDemand s (demandedMode s.trc.state) s.trc.drive (demandedDuty s.trc) atOnce
  else s

/-! ### What every event at TRC ends with -/

/-- At any event after which V is 0, the drive direction takes the stated direction (R76). -/
def followDirection (s : State) : State :=
  if s.trc.ramp = 0 then s.setTrc { s.trc with drive := s.trc.stated } else s

/-- The back-EMF timer is started or stopped by its conditions (R78). -/
def testBemfTimer (s : State) : State :=
  if bemfConditions s then
    match s.trc.bemfTimer with
    | some _ => s
    | none => s.setTrc { s.trc with bemfTimer := some (s.bemfPeriod * 1000) }
  else s.setTrc { s.trc with bemfTimer := none }

/-- The stall timer is started or stopped by the stall test (R94). -/
def testStall (s : State) : State :=
  if stallTest s then
    match s.trc.stallTimer with
    | some _ => s
    | none => s.setTrc { s.trc with stallTimer := some (s.stallTime * 100000) }
  else s.setTrc { s.trc with stallTimer := none }

/-- The conditions that changed, with a changed drive direction, are published as one change (R98). -/
def publishTraction (before : Dir) (s : State) : State :=
  let c := tractionConditions s.trc
  if c ≠ s.trc.published || s.trc.drive ≠ before then
    publish (s.setTrc { s.trc with published := c }) (.traction c s.trc.drive)
  else s

/-- The end of an event at TRC. `tick` says that the event is a ramp tick, `work` that it is one at which the stall test
is made without a change of state, `atOnce` that a cap has fallen; `before` is TRC as the event found it. -/
def tractionEnd (before : Trc) (tick work atOnce : Bool) (s : State) : State :=
  let changed := s.trc.state ≠ before.state
  let s := followDirection s
  let s := if tick || changed then testBemfTimer s else s
  let s := if tick || work || changed then testStall s else s
  handDemand (publishTraction before.drive s) atOnce

/-! ### The target (R71, R72) -/

/-- The table target of a step from 0 to 240 (R71). -/
def tableTarget (speed : List Byte) (step : Nat) : Nat :=
  if step = 0 then 0
  else
    let k := step / 15
    let r := step % 15
    if r = 0 then anchor speed k
    else anchor speed k + ((anchor speed (k + 1) - anchor speed k) * r + 7) / 15

/-- T, by the step and the shunt flag (R71). -/
def workOutTarget (s : State) : State :=
  let t := tableTarget s.tbs.active.speed s.trc.step
  s.setTrc { s.trc with target := if s.trc.shunt then t / 2 else t }

/-- The change between IDLE and RUNNING that a new T gives (R72, R86). -/
def idleOrRunning (t : Trc) : Trc :=
  match t.state with
  | .idle => if 0 < t.target && t.armed then { t with state := .running } else t
  | .running => if t.ramp = 0 && t.target = 0 then { t with state := .idle } else t
  | _ => t

/-- T is worked out afresh on a change of shunt or of the speed table (R72). -/
def retarget (s : State) : State :=
  let before := s.trc
  let s := workOutTarget s
  tractionEnd before false false false (s.setTrc (idleOrRunning s.trc))

/-- FNU delivers the shunt flag (R65, R72). -/
def tractionShunt (s : State) (on : Bool) : State := retarget (s.setTrc { s.trc with shunt := on })

/-- FNU delivers the momentum-off flag; it takes effect at the next tick (R65, R74). -/
def tractionMomentum (s : State) (on : Bool) : State := s.setTrc { s.trc with momentumOff := on }

/-! ### Pieces shared by the state changes -/

/-- The effects of V becoming 0 (R75), the drive direction apart. -/
def rampStopped (t : Trc) : Trc :=
  { t with ramp := 0, duty := 0, integral := 0, speed := 0, load := 0, loaded := false, bemfTimer := none,
           stallTimer := none }

/-- Disarming: the latch is cleared, and s and T become 0 (R85). -/
def disarmed (t : Trc) : Trc := { t with armed := false, step := 0, target := 0 }

/-- A traction state that holds V at 0 is entered disarmed (EMERGENCY, LOCKOUT, STALLED). -/
def haltedIn (t : Trc) (state : Traction) : Trc := { disarmed (rampStopped t) with state := state }

/-- The open-loop duty: the smaller of Vint and B, with I at 0 (R81). -/
def openLoop (t : Trc) : Trc := { t with duty := min (vint t) (dutyBound t), integral := 0 }

/-- FAILSAFE is entered: I = 0, the open-loop duty, L = 0; with V = 0 it ends at once (R81, R89, R90). -/
def failsafeEntered (t : Trc) : Trc :=
  if t.ramp = 0 then { rampStopped t with state := .idle }
  else { openLoop t with state := .failsafe, load := 0, loaded := false }

/-! ### The ramp tick (R73 to R75) -/

/-- V moved toward 64 × Te at the rates given; a rate of 0, or `land`, takes it there at once (R74). -/
def rampMoved (v goal rise fall : Nat) (land : Bool) : Nat :=
  if v < goal then (if land || rise = 0 then goal else min goal (v + rise))
  else if goal < v then (if land || fall = 0 then goal else max goal (v - fall))
  else v

/-- The ramp value after a tick in a state that moves it (Table 5-1). -/
def rampNext (s : State) : Nat :=
  match s.trc.state with
  | .idle => rampMoved s.trc.ramp (64 * s.trc.target) s.accel s.decel s.trc.momentumOff
  | .running => rampMoved s.trc.ramp (64 * s.trc.target) s.accel s.decel s.trc.momentumOff
  | .reversing => rampMoved s.trc.ramp 0 0 s.decel s.trc.momentumOff
  | .failsafe => rampMoved s.trc.ramp 0 0 s.fsDecel false
  | _ => s.trc.ramp

/-- A tick in the present state moves V (Table 5-1). -/
def tickMoves (t : Traction) : Bool := t = .idle || t = .running || t = .reversing || t = .failsafe

/-- Steps 2 and 3 of R75: the open-loop duty, and D and I at 0 while Vint is 0. -/
def tickDuty (s : State) : Trc :=
  let t := if s.trc.state = .failsafe || (underRegulation s.trc && !s.regOn) then openLoop s.trc else s.trc
  if vint t = 0 then { t with duty := 0, integral := 0 } else t

/-- Step 6 of R75: the state changes that follow from the new V (R76, R77, R86, R90). -/
def tickState (t : Trc) : Trc :=
  if t.ramp = 0 then
    match t.state with
    | .running => if t.target = 0 then { t with state := .idle } else t
    | .reversing => { t with state := if t.target = 0 then .idle else .running }
    | .failsafe => { t with state := .idle }
    | _ => t
  else t

/-- A ramp tick (R73 to R75). A tick that leaves V as it was works out L and LOADED too, a reading beside R83 and R75
(notes/assumptions/21). -/
def rampTick (s : State) : State :=
  if tickMoves s.trc.state then
    let before := s.trc
    let s := s.setTrc { s.trc with ramp := rampNext s }
    let s := workOutLoad (s.setTrc (tickDuty s))
    let s := if s.trc.ramp = 0 && 0 < before.ramp then s.setTrc (rampStopped s.trc) else s
    tractionEnd before true false false (s.setTrc (tickState s.trc))
  else s

/-! ### Drive commands and halts (R86 to R88) -/

/-- The state after a drive command taken while armed, by the present state (R86). -/
def driveState (t : Trc) : Traction :=
  match t.state with
  | .idle => if 0 < t.target then .running else .idle
  | .running =>
    if 0 < t.ramp && t.stated ≠ t.drive then .reversing
    else if t.ramp = 0 && t.target = 0 then .idle
    else .running
  | .reversing => if t.stated = t.drive then .running else .reversing
  | other => other

/-- A drive command taken while armed (R86). -/
def driveArmed (s : State) (step : Nat) (d : Dir) : State :=
  let before := s.trc
  let s := workOutTarget (s.setTrc { s.trc with step := min 240 step, stated := d })
  tractionEnd before false false false (s.setTrc { s.trc with state := driveState s.trc })

/-- The state after re-arming, by the present state and whether the directions agree (R87). -/
def rearmState (t : Trc) : Traction :=
  match t.state with
  | .emergency => .idle
  | .lockout => .idle
  | .stalled => .idle
  | .failsafe => if t.stated = t.drive then .running else .reversing
  | other => other

/-- Re-arming: the latch is set, s and T are 0, and the direction is taken (R87). A failsafe that re-arming ends gives
the regulator I = 0. -/
def rearm (s : State) (d : Dir) : State :=
  let before := s.trc
  let t : Trc := { s.trc with armed := true, step := 0, target := 0, stated := d }
  let t : Trc := if t.state = .failsafe then { t with integral := 0 } else t
  tractionEnd before false false false (s.setTrc (idleOrRunning { t with state := rearmState t }))

/-- A drive command from the owner: R86 while armed; while disarmed step 0 re-arms and any other step is ignored. -/
def driveCommand (s : State) (step : Nat) (d : Dir) : State :=
  if s.trc.armed then driveArmed s step d
  else if step = 0 then rearm s d
  else s

/-- An emergency halt (R88). -/
def emergencyHalt (s : State) : State :=
  let before := s.trc
  match s.trc.state with
  | .idle => tractionEnd before false false false (s.setTrc (haltedIn s.trc .emergency))
  | .running => tractionEnd before false false false (s.setTrc (haltedIn s.trc .emergency))
  | .reversing => tractionEnd before false false false (s.setTrc (haltedIn s.trc .emergency))
  | .failsafe => tractionEnd before false false false (s.setTrc (haltedIn s.trc .emergency))
  | .tripped => tractionEnd before false false false (s.setTrc (haltedIn s.trc .emergency))
  | .suspended => tractionEnd before false false false (s.setTrc (disarmed s.trc))
  | .emergency => s
  | .lockout => s
  | .stalled => s

/-- A change of stated direction at an address table installation (R32, R99). -/
def statedInverted (s : State) : State :=
  if s.trc.armed then driveArmed s s.trc.step (dirInverted s.trc.stated)
  else tractionEnd s.trc false false false (s.setTrc { s.trc with stated := dirInverted s.trc.stated })

/-! ### Notices (R89, R91 to R93) -/

/-- A command-loss notice with action STOP (R89). -/
def lossNotice (s : State) : State :=
  let before := s.trc
  match s.trc.state with
  | .running => tractionEnd before false false false (s.setTrc (failsafeEntered (disarmed s.trc)))
  | .reversing => tractionEnd before false false false (s.setTrc (failsafeEntered (disarmed s.trc)))
  | .idle => tractionEnd before false false false (s.setTrc (disarmed s.trc))
  | .tripped => tractionEnd before false false false (s.setTrc (disarmed s.trc))
  | .suspended => tractionEnd before false false false (s.setTrc (disarmed s.trc))
  | .failsafe => s
  | .emergency => s
  | .lockout => s
  | .stalled => s

/-- TRC enters TRIPPED with V held (R91). -/
def tripEntered (t : Trc) : Trc :=
  { t with state := .tripped, integral := 0, duty := 0, load := 0, loaded := false, bemfTimer := none,
           stallTimer := none }

/-- A trip notice (R91). -/
def tripNotice (s : State) : State :=
  if underRegulation s.trc || s.trc.state = .failsafe then
    tractionEnd s.trc false false false (s.setTrc (tripEntered s.trc))
  else s

/-- TRC as a retry notice leaves it, from TRIPPED (R92). -/
def retryEntered (t : Trc) : Trc :=
  if !t.armed then failsafeEntered t
  else if t.stated ≠ t.drive then { t with state := .reversing }
  else idleOrRunning { t with state := .running }

/-- A retry notice (R92). -/
def retryNotice (s : State) : State :=
  if s.trc.state = .tripped then tractionEnd s.trc false false false (s.setTrc (retryEntered s.trc)) else s

/-- A lockout notice (R93). -/
def lockoutNotice (s : State) : State :=
  let t := if s.trc.state = .suspended then disarmed s.trc else haltedIn s.trc .lockout
  tractionEnd s.trc false false false (s.setTrc t)

/-- The stall timer expires (R94, R95). -/
def stallExpiry (s : State) : State :=
  if s.trc.stallTimer.isSome then tractionEnd s.trc false false false (s.setTrc (haltedIn s.trc .stalled)) else s

/-! ### Power states and the duty cap (R82, R96, R97) -/

/-- PPM announces a power state to TRC (R96, R97). -/
def tractionPower (s : State) (p : PowerState) : State :=
  match p with
  | .init => tractionEnd s.trc false false false (s.setTrc { rampStopped s.trc with state := .suspended })
  | .hold => tractionEnd s.trc false false false (s.setTrc { rampStopped s.trc with state := .suspended })
  | .coast => s
  | .normal =>
    if s.trc.state = .suspended then
      tractionEnd s.trc false false false
        (s.setTrc { s.trc with state := if s.trc.armed && 0 < s.trc.target then .running else .idle })
    else s

/-- PPM publishes Dcap to TRC (R82). A duty above the new bound is set to it, and a fall is handed to MBR at once. -/
def tractionCap (s : State) (dcap : Nat) : State :=
  let before := s.trc
  let s := s.setTrc { s.trc with dcap := dcap }
  let s :=
    if dutyBound s.trc < s.trc.duty then workOutLoad (s.setTrc { s.trc with duty := dutyBound s.trc }) else s
  tractionEnd before false true (dcap < before.dcap) s

/-! ### Back-EMF (R78 to R80) -/

/-- The measured speed that a raw code gives (step 1 of R79). -/
def measuredSpeed (raw scale : Nat) : Nat := min 1023 (raw * scale / 1024)

/-- The error e of the regulator (step 2 of R79). -/
def regulatorError (t : Trc) (speed : Nat) : Int := (vint t : Int) - speed

/-- The proportional term, rounded toward zero (step 3 of R79). -/
def proportional (e : Int) (kp : Nat) : Int := (e * kp).tdiv 16

/-- The integral, held by the anti-windup test or moved (step 6 of R79). -/
def integralNext (i bound ki : Nat) (e p : Int) : Nat :=
  let trial : Int := (i / 256 : Nat) + p
  if (bound ≤ trial && 0 < e) || (trial ≤ 0 && e < 0) then i else clampInt (i + e * ki) 0 261888

/-- The regulator run on a raw code (R79, steps 1 to 8). -/
def regulated (s : State) (raw : Nat) : Trc :=
  let speed := measuredSpeed raw s.bemfScale
  let e := regulatorError s.trc speed
  let p := proportional e s.kp
  let i := integralNext s.trc.integral (dutyBound s.trc) s.ki e p
  let duty := clampInt ((i / 256 : Nat) + p) 0 (dutyBound s.trc)
  if vint s.trc = 0 then { s.trc with speed := speed, duty := 0, integral := 0 }
  else { s.trc with speed := speed, duty := duty, integral := i }

/-- MSQ delivers a back-EMF result to TRC (R79, R80). -/
def bemfResult (s : State) (raw : Nat) : State :=
  let before := s.trc
  let s := s.setTrc { s.trc with outstanding := false }
  if underRegulation s.trc && s.regOn then
    tractionEnd before false true false (workOutLoad (s.setTrc (regulated s raw)))
  else if 0 < s.trc.ramp then s.setTrc { s.trc with speed := measuredSpeed raw s.bemfScale }
  else s

/-- The back-EMF timer expires: it restarts, and a request is placed if none is outstanding (R78, R124). -/
def bemfExpiry (s : State) : State :=
  if s.trc.bemfTimer.isSome then
    let s := s.setTrc { s.trc with bemfTimer := some (s.bemfPeriod * 1000) }
    if s.trc.outstanding then s else gapOffer (s.setTrc { s.trc with outstanding := true })
  else s

end Sys2Proof.Machine
end

