-- ==== Sys2Proof/Machine/Functions.lean ====
section
/-!
DEFINITION. The function unit (chapter 4): activity, evaluation, deliveries, the installation of a map, and the taking
of the publications that wait.
-/
namespace Sys2Proof.Machine

/-! ### Activity (R60) -/

/-- A trigger is on. -/
def triggerOn (f : Fnu) (t : Trigger) : Bool :=
  match t with
  | .function n => f.functions.getLsbD n
  | .condition n => conditionAt f.conditions n

/-- A direction qualifier holds. -/
def directionHolds (f : Fnu) (q : Option DirQualifier) : Bool :=
  match q with
  | some .any => true
  | some .fwd => f.drive = .fwd
  | some .rev => f.drive = .rev
  | none => false

/-- A motion qualifier holds. -/
def motionHolds (f : Fnu) (q : Option MotionQualifier) : Bool :=
  match q with
  | some .any => true
  | some .moving => f.conditions.moving
  | some .stopped => !f.conditions.moving
  | none => false

/-- A map entry is active (R60). -/
def entryActive (f : Fnu) (e : MapEntry) : Bool :=
  e.used && triggerOn f e.trigger && directionHolds f e.direction && motionHolds f e.motion

/-! ### Outputs (R63 to R65) -/

/-- The demand an active entry makes of a lamp output. -/
def lampOf (n : Nat) (e : MapEntry) : Option LampDemand :=
  match e.action with
  | some (.lamp m d) => if m = n then some d else none
  | _ => none

/-- The demand of a lamp output: that of the lowest-numbered active LAMP entry for it (R63). -/
def lampDemandFor (active : List MapEntry) (n : Nat) : Option LampDemand := active.findSome? (lampOf n)

/-- An action is borne by some active entry. -/
def actionActive (active : List MapEntry) (a : Action) : Bool := active.any (fun e => e.action = some a)

/-- The active entries of a map, in ascending order. -/
def activeEntries (f : Fnu) (entries : List MapEntry) : List MapEntry := entries.filter (entryActive f)

/-- The outputs worked out from the complete set of active entries (R63 to R65). -/
def outputsFor (active : List MapEntry) : Outputs :=
  { lamps := (List.range 8).map (lampDemandFor active)
    smoke := actionActive active .smoke
    mute := actionActive active .mute
    shunt := actionActive active .shunt
    momentumOff := actionActive active .momentumOff }

/-! ### Deliveries (R61, R62) -/

/-- The levels last delivered, replaced. -/
def setDelivered (s : State) (o : Outputs) : State := s.setFnu { s.fnu with delivered := o }

/-- The demand of a lamp output is delivered if its new value differs from the one last delivered. -/
def deliverLamp (new : Outputs) (n : Nat) (s : State) : State :=
  let d := new.lamps.getD n none
  if s.fnu.delivered.lamps.getD n none = d then s
  else lampDemanded (setDelivered s { s.fnu.delivered with lamps := setAt s.fnu.delivered.lamps n d }) n d

/-- Smoke enable is delivered if it differs from the one last delivered. -/
def deliverSmoke (new : Outputs) (s : State) : State :=
  if s.fnu.delivered.smoke = new.smoke then s
  else smokeEnable (setDelivered s { s.fnu.delivered with smoke := new.smoke }) new.smoke

/-- Mute, likewise. -/
def deliverMute (new : Outputs) (s : State) : State :=
  if s.fnu.delivered.mute = new.mute then s
  else soundMute (setDelivered s { s.fnu.delivered with mute := new.mute }) new.mute

/-- Shunt, likewise. -/
def deliverShunt (new : Outputs) (s : State) : State :=
  if s.fnu.delivered.shunt = new.shunt then s
  else tractionShunt (setDelivered s { s.fnu.delivered with shunt := new.shunt }) new.shunt

/-- Momentum-off, likewise. -/
def deliverMomentum (new : Outputs) (s : State) : State :=
  if s.fnu.delivered.momentumOff = new.momentumOff then s
  else tractionMomentum (setDelivered s { s.fnu.delivered with momentumOff := new.momentumOff }) new.momentumOff

/-- The deliveries that belong to an entry that has activated (`on`) or deactivated (R61, R62). -/
def deliverEntry (new : Outputs) (e : MapEntry) (on : Bool) (s : State) : State :=
  match e.action with
  | some (.cue c) => if on then soundTrigger s c else soundRelease s c
  | some (.lamp n _) => deliverLamp new n s
  | some .smoke => deliverSmoke new s
  | some .mute => deliverMute new s
  | some .shunt => deliverShunt new s
  | some .momentumOff => deliverMomentum new s
  | none => s

/-- The walk of the entries in ascending order: each entry, with its kept and its new activity (R61). -/
def walk (new : Outputs) (entries : List (MapEntry × Bool × Bool)) (s : State) : State :=
  match entries with
  | [] => s
  | (e, old, now) :: rest => walk new rest (if old = now then s else deliverEntry new e now s)

/-- The kept activity of every entry replaced. -/
def keepActivity (s : State) (a : List Bool) : State := s.setFnu { s.fnu with activity := a }

/-- An evaluation (R60, R61). -/
def evaluate (s : State) : State :=
  let entries := mapEntries s.tbs.active.map
  let activity := entries.map (entryActive s.fnu)
  keepActivity
    (walk (outputsFor (activeEntries s.fnu entries)) (entries.zip (s.fnu.activity.zip activity)) s) activity

/-! ### Publications (R57, R58) -/

/-- FNU's copies after a publication. -/
def copiesAfter (f : Fnu) (p : Publication) : Fnu :=
  match p with
  | .traction c d =>
    { f with drive := d,
             conditions := { f.conditions with moving := c.moving, accelerating := c.accelerating,
                                               decelerating := c.decelerating, loaded := c.loaded,
                                               stalled := c.stalled } }
  | .signalLost on => { f with conditions := { f.conditions with signalLost := on } }
  | .coasting on => { f with conditions := { f.conditions with coasting := on } }
  | .smokeReady on => { f with conditions := { f.conditions with smokeReady := on } }

/-- FNU takes one publication: an evaluation follows if a copy changed (R57, R58). -/
def takePublication (s : State) (p : Publication) : State :=
  let f := copiesAfter s.fnu p
  if f.conditions = s.fnu.conditions && f.drive = s.fnu.drive then s else evaluate (s.setFnu f)

/-- FNU takes publications one by one, each as an event of its own, up to a number of turns (R60). -/
def fnuTake (turns : Nat) (s : State) : State :=
  match turns with
  | 0 => s
  | n + 1 =>
    match s.fnu.waiting with
    | [] => s
    | p :: rest => fnuTake n (takePublication (s.setFnu { s.fnu with waiting := rest }) p)

/-- The turns FNU takes within one command. A map that feeds its own trigger can turn over for ever (R65): what waits
after these turns is taken at the next step, after the event of its command (notes/assumptions/6). -/
def fnuTurns : Nat := 16

/-- FNU takes what waits. -/
def fnuSettle (s : State) : State := fnuTake fnuTurns s

/-! ### FUNC (R27, R56) -/

/-- The functions of group `g` that lie in a window are given the states handed with them (R27, R56). -/
def functionsSet (fs : BitVec 64) (group states low high : Nat) : BitVec 64 :=
  (List.range 8).foldl
    (fun acc b =>
      let n := 8 * group + b
      if low ≤ n && n ≤ high then
        (if states / 2 ^ b % 2 = 1 then acc ||| BitVec.twoPow 64 n else acc &&& ~~~(BitVec.twoPow 64 n))
      else acc) fs

/-- FNU takes a FUNC frame as one event: one evaluation if a function changed (R56). -/
def functionsHanded (s : State) (group states low high : Nat) : State :=
  let fs := functionsSet s.fnu.functions group states low high
  if fs = s.fnu.functions then s else evaluate (s.setFnu { s.fnu with functions := fs })

/-! ### The installation of a map (R67) -/

/-- Two entries are the same: both unused, or both used and equal in every field that means something (R67). -/
def sameEntry (a b : MapEntry) : Bool := (!a.used && !b.used) || a = b

/-- One entry of the special walk: an old entry that was active counts as deactivated, and a new one that is active as
activated, where they differ. -/
def installEntry (new : Outputs) (x : MapEntry × MapEntry) (old now : Bool) (s : State) : State :=
  if sameEntry x.1 x.2 then s
  else
    let s := if old then deliverEntry new x.1 false s else s
    if now then deliverEntry new x.2 true s else s

/-- The special walk (R67): each pair of old and new entry, with the kept and the new activity. -/
def installWalk (new : Outputs) (entries : List ((MapEntry × MapEntry) × Bool × Bool)) (s : State) : State :=
  match entries with
  | [] => s
  | (x, old, now) :: rest => installWalk new rest (installEntry new x old now s)

/-- TBS has installed a MAP table in place of `oldMap` (R67). -/
def mapInstalled (s : State) (oldMap : List Byte) : State :=
  let entries := mapEntries s.tbs.active.map
  let activity := entries.map (entryActive s.fnu)
  let pairs := (mapEntries oldMap).zip entries
  keepActivity
    (installWalk (outputsFor (activeEntries s.fnu entries)) (pairs.zip (s.fnu.activity.zip activity)) s) activity

end Sys2Proof.Machine
end

