-- ==== Sys2Proof/Machine/Live.lean ====
section
/-!
DEFINITION. How a command acts: only while the part runs, and, where its effect can reach FNU, with FNU taking what was
published before the next command is taken.
-/
namespace Sys2Proof.Machine

/-- The part runs: no reset is held and no restore is being written (R191). -/
def running (s : State) : Bool := s.ppm.phase = .running

/-- An event at a part in reset changes nothing: every block stays in its reset state (R191). -/
def whileRunning (f : State → State) (s : State) : State := if running s then f s else s

/-- A command whose effect cannot reach FNU. -/
def live (f : State → State) (s : State) : Host.Outcome State Fault Refusal := .next (whileRunning f s)

/-- A command after which FNU takes what has been published (R57). What the turns of an earlier command have left waiting is
taken here too, after this command's own event: a DESIGN CHOICE beside R60 (notes/assumptions/6). -/
def settled (f : State → State) (s : State) : Host.Outcome State Fault Refusal :=
  .next (whileRunning (fun s => fnuSettle (f s)) s)

end Sys2Proof.Machine
end

