-- ==== Sys2Proof/Machine/Trips.lean ====
section
/-!
DEFINITION. Overcurrent trips, their judgement and the retry (section 6.5).
-/
namespace Sys2Proof.Machine

/-- A lockout opens a TRIPPED bridge into OFF, which ends the trip with the retry timer stopped (R111, R112;
notes/assumptions/12). -/
def lockoutOpens (s : State) : State := if s.mbr.bridge = .tripped then bridgeOff (endTrip s) else s

/-- A trip judged an overload (R112). -/
def judgeOverload (s : State) : State :=
  if 4 ≤ s.mbr.overloads + 1 then
    let s := s.setMbr { s.mbr with overloads := 0 }
    lockoutNotice (lockoutOpens s)
  else
    let s := s.setMbr { s.mbr with overloads := s.mbr.overloads + 1 }
    if s.mbr.bridge = .tripped then s.setMbr { s.mbr with retryTimer := some retryTime } else s

/-- A trip judged a short (R111). -/
def judgeShort (s : State) : State :=
  let s := s.setMbr { s.mbr with lockoutShort := true, overloads := 0 }
  lockoutNotice (lockoutOpens s)

/-- The result of the injected MOTOR_I conversion (R110, R111, R112). -/
def judgeTrip (s : State) (code : Nat) : State :=
  let s := s.setMbr { s.mbr with awaited := false }
  if s.shortLevel ≤ code then judgeShort s else judgeOverload s

/-- The bridge opens into TRIPPED, and the current sense holds from here (steps 1 to 3 of R109, R110). -/
def bridgeTripped (s : State) : State :=
  holdBegun (abandonGap (bridgeStop s .tripped))

/-- The record of the injected conversion that a trip raises (step 5 of R109). -/
def tripInject : Inject := { channel := .motorI, requester := .mbr, cancel := true }

/-- MBR raises the injected conversion; a refusal is judged an overload at once (R109, R110). -/
def tripMeasure (s : State) : State :=
  if injectRoom s.msq then
    let s := injectRaised s tripInject
    s.setMbr { s.mbr with awaited := true }
  else judgeOverload (s.setMbr { s.mbr with awaited := false })

/-- The comparator acts on a bridge current in milliamperes: above the level it keeps, in DRIVE or GAP (R109). -/
def tripActs (m : Mbr) (milliamps : Nat) : Bool :=
  (m.bridge = .drive || m.bridge = .gap) && m.tripLevel * 50 < milliamps

/-- The bridge current reaches a value (R109). -/
def overcurrent (s : State) (milliamps : Nat) : State :=
  if tripActs s.mbr milliamps then tripMeasure (tripNotice (bridgeTripped s)) else s

/-- The retry timer expires with the bridge in TRIPPED (R113). -/
def retryExpiry (s : State) : State :=
  if s.mbr.retryTimer.isSome && s.mbr.bridge = .tripped then
    retryNotice (bridgeStart (s.setMbr { s.mbr with retryTimer := none }))
  else s

/-- The trip-free timer expires (R114). -/
def tripFreeExpiry (s : State) : State :=
  if s.mbr.tripFreeTimer.isSome then s.setMbr { s.mbr with tripFreeTimer := none, overloads := 0 } else s

end Sys2Proof.Machine
end

