-- ==== Sys2Proof/Machine/BridgeEvents.lean ====
section
/-!
DEFINITION. The meanings of the events of MBR (chapter 6).
-/
namespace Sys2Proof.Machine

/-- PWM_PERIOD_END (R102, R106). -/
def execPwmPeriodEnd (s : State) : Host.Outcome State Fault Refusal :=
  live periodEnd s

/-- SETTLE_TIMER_EXPIRY (R106, R125). -/
def execSettleTimerExpiry (s : State) : Host.Outcome State Fault Refusal :=
  live settleExpiry s

/-- OVERCURRENT_TRIP (R109). -/
def execOvercurrentTrip (milliamps : Nat) (s : State) : Host.Outcome State Fault Refusal :=
  settled (fun s => overcurrent s milliamps) s

/-- RETRY_TIMER_EXPIRY (R113). -/
def execRetryTimerExpiry (s : State) : Host.Outcome State Fault Refusal :=
  settled retryExpiry s

/-- TRIP_FREE_TIMER_EXPIRY (R114). -/
def execTripFreeTimerExpiry (s : State) : Host.Outcome State Fault Refusal :=
  live tripFreeExpiry s

end Sys2Proof.Machine
end

