-- ==== Sys2Proof/Machine/Cam.lean ====
section
/-!
DEFINITION. The cam unit (chapter 8): departures, the wheel sensor and its qualification, the silence watch, the virtual
cam, and chuff events. Times are in microseconds since the release of the reset.
-/
namespace Sys2Proof.Machine

/-- One turn of the virtual cam's phase. -/
def camTurn : Nat := 1048576

/-- The time from one cam tick to the next, 2 ms. -/
def camTickTime : Nat := 2000

/-! ### Reading the ramp value (R133) -/

/-- What a departure sets before anything else is done (R133). -/
def departed (c : Cam) (now : Nat) : Cam :=
  { c with moving := true, index := 0, accumulator := 0, previousEdge := none, inconsistentRun := 0,
           silenceRef := now }

/-- The rest state and what a departure sets, after V has been read (R133). -/
def camRead (c : Cam) (ramp now : Nat) : Cam :=
  if ramp = 0 then { c with moving := false } else if c.moving then c else departed c now

/-- CAM reads V from TRC (R133). -/
def camReads (s : State) (now : Nat) : State := s.setCam (camRead s.cam s.trc.ramp now)

/-! ### The expected period and consistency (R135) -/

/-- Pv in units of 10 µs, at a rate Vint × CAM_SCALE above 0. -/
def expectedPeriod (rate : Nat) : Nat := 200 * camTurn / rate

/-- Vint × CAM_SCALE: what a tick adds to P, and what Pv is worked out from. -/
def camRate (s : State) : Nat := vint s.trc * s.camScale

/-- A period is consistent with an expected one: from half of it to twice it. -/
def periodConsistent (period pv : Nat) : Bool := pv ≤ 2 * period && period ≤ 2 * pv

/-- How an accepted edge counts at the qualification (R135, R136). -/
inductive EdgeKind where
  | consistent
  | inconsistent
  | opening
  deriving DecidableEq, Repr

/-- The period of an accepted edge in units of 10 µs, limited to 65,535 (R134). -/
def edgePeriod (previous now : Nat) : Nat := min 65535 ((now - previous) / 10)

/-- The kind of an accepted edge; at Vint 0 it counts as an opening edge (R134, R135). -/
def edgeKind (s : State) (now : Nat) : EdgeKind :=
  match s.cam.previousEdge with
  | none => .opening
  | some t =>
    if vint s.trc = 0 then .opening
    else if periodConsistent (edgePeriod t now) (expectedPeriod (camRate s)) then .consistent
    else .inconsistent

/-! ### Qualification (R136) -/

/-- The qualification and the inconsistent run after a consistent edge. -/
def qualifyConsistent (c : Cam) : Cam :=
  match c.qualification with
  | .unqualified => { c with qualification := .qualifying 1 }
  | .qualifying n =>
    if n < 3 then { c with qualification := .qualifying (n + 1) }
    else { c with qualification := .qualified, inconsistentRun := 0 }
  | .qualified => { c with inconsistentRun := 0 }

/-- The qualification and the inconsistent run after an inconsistent edge. -/
def qualifyInconsistent (c : Cam) : Cam :=
  match c.qualification with
  | .unqualified => c
  | .qualifying _ => { c with qualification := .unqualified }
  | .qualified =>
    if c.inconsistentRun = 0 then { c with inconsistentRun := 1 }
    else { c with qualification := .unqualified, inconsistentRun := 0 }

/-- The table of R136. -/
def qualify (c : Cam) (k : EdgeKind) : Cam :=
  match k with
  | .consistent => qualifyConsistent c
  | .inconsistent => qualifyInconsistent c
  | .opening => c

/-- An accepted edge becomes the previous edge, is counted, and sets the silence reference while QUALIFIED
(R134, R136). -/
def edgeCounted (c : Cam) (k : EdgeKind) (now : Nat) : Cam :=
  let c := qualify { c with previousEdge := some now } k
  if c.qualification = .qualified then { c with silenceRef := now } else c

/-! ### The silence watch (R137) -/

/-- The time the watch allows, in microseconds: the larger of 3 × Pv units and 25,000 units. -/
def silenceAllowed (s : State) : Nat := 10 * max (3 * expectedPeriod (camRate s)) 25000

/-- The watch is tested and has elapsed. -/
def watchElapsed (s : State) (now : Nat) : Bool :=
  s.cam.qualification = .qualified && 0 < vint s.trc && silenceAllowed s ≤ now - s.cam.silenceRef

/-- The silence watch at a tick at which V is above 0. -/
def silenceTested (s : State) (now : Nat) : State :=
  if watchElapsed s now then s.setCam { s.cam with qualification := .unqualified, inconsistentRun := 0 } else s

/-! ### The cam source (R138) -/

/-- The source as CAM_MODE and the qualification give it. -/
def sourceNow (s : State) : CamSource :=
  if s.sensorPreferred && s.cam.qualification = .qualified then .sensor else .virtual

/-- What P is set to when the source changes. -/
def sourcePhase (x : CamSource) : Nat :=
  match x with
  | .sensor => 0
  | .virtual => 524288

/-- CAM decides the source again; a change sets P. -/
def sourceDecided (s : State) : State :=
  if sourceNow s = s.cam.source then s
  else s.setCam { s.cam with source := sourceNow s, accumulator := sourcePhase (sourceNow s) }

/-! ### Chuff events (R140, R141) -/

/-- The index that a chuff event carries (step 1 of R141). -/
def chuffIndex (index cpr : Nat) : Nat := if cpr ≤ index then 0 else index

/-- The index after an emission (step 3 of R141). -/
def chuffIndexNext (carried cpr : Nat) : Nat := if carried + 1 = cpr then 0 else carried + 1

/-- A chuff event is emitted, and handed to SND and SMK. -/
def chuffEmitted (s : State) : State :=
  let carried := chuffIndex s.cam.index s.cpr
  let s := s.setCam { s.cam with index := chuffIndexNext carried s.cpr }
  smokeChuff (soundChuff s carried)

/-! ### The cam tick (R133, R137 to R140) -/

/-- A tick's increase of P wraps it: a virtual chuff (R139). -/
def tickWraps (s : State) : Bool := camTurn ≤ s.cam.accumulator + camRate s

/-- A phase less one turn. -/
def lessOneTurn (p : Nat) : Nat := ((p : Int) - camTurn).toNat

/-- P is increased, and one turn is subtracted if it wraps (R139). -/
def phaseAdvanced (s : State) : State :=
  s.setCam { s.cam with accumulator := if tickWraps s then lessOneTurn (s.cam.accumulator + camRate s)
                                       else s.cam.accumulator + camRate s }

/-- P is increased, and a virtual chuff is emitted while the source is VIRTUAL (R139, R140). -/
def virtualStep (s : State) : State :=
  if tickWraps s && s.cam.source = .virtual then chuffEmitted (phaseAdvanced s) else phaseAdvanced s

/-- The time of the tick. -/
def tickTimed (s : State) : State := s.setCam { s.cam with time := s.cam.time + camTickTime }

/-- A tick up to the silence watch: the time and the reading of V. -/
def tickRead (s : State) : State := camReads (tickTimed s) (s.cam.time + camTickTime)

/-- A tick up to the increase of P: the watch has been tested and the source decided. -/
def tickDecided (s : State) : State := sourceDecided (silenceTested (tickRead s) (s.cam.time + camTickTime))

/-- A cam tick. -/
def camTick (s : State) : State := if s.trc.ramp = 0 then tickRead s else virtualStep (tickDecided s)

/-- The next tick is one at which the silence watch has elapsed (R137). -/
def tickElapses (s : State) : Bool := s.trc.ramp ≠ 0 && watchElapsed (tickRead s) (s.cam.time + camTickTime)

/-- The next tick is one at which the accumulator wraps (R139). -/
def tickChuffs (s : State) : Bool := s.trc.ramp ≠ 0 && tickWraps (tickDecided s)

/-! ### An edge on CAM_IN (R133, R134, R136, R138, R140) -/

/-- An edge is rejected: less than CAM_DEBOUNCE ms has passed since the previous edge. -/
def edgeRejected (s : State) (now : Nat) : Bool :=
  match s.cam.previousEdge with
  | none => false
  | some t => now - t < s.camDebounce * 1000

/-- An accepted edge: counted, the source decided, and emitted while the source is SENSOR. -/
def edgeAccepted (s : State) (now : Nat) : State :=
  let s := sourceDecided (s.setCam (edgeCounted s.cam (edgeKind s now) now))
  if s.cam.source = .sensor then chuffEmitted s else s

/-- A rising edge on CAM_IN, at a time. -/
def camEdge (s : State) (now : Nat) : State :=
  if s.trc.ramp = 0 then camReads s now
  else if edgeRejected (camReads s now) now then camReads s now
  else edgeAccepted (camReads s now) now

end Sys2Proof.Machine
end

