-- ==== Sys2Proof/Machine/CamEvents.lean ====
section
/-!
DEFINITION. The meanings of the events of CAM (chapter 8). SILENCE_WATCH_ELAPSED and VIRTUAL_CHUFF are the cam ticks at which the
watch has elapsed and at which the accumulator wraps; a tick that is not one of these changes nothing under their names
(notes/assumptions/7).
-/
namespace Sys2Proof.Machine

/-- CAM_TICK (R133, R137 to R140). -/
def execCamTick (s : State) : Host.Outcome State Fault Refusal :=
  live camTick s

/-- SILENCE_WATCH_ELAPSED (R137). -/
def execSilenceWatchElapsed (s : State) : Host.Outcome State Fault Refusal :=
  live (fun s => if tickElapses s then camTick s else s) s

/-- VIRTUAL_CHUFF (R139). -/
def execVirtualChuff (s : State) : Host.Outcome State Fault Refusal :=
  live (fun s => if tickChuffs s then camTick s else s) s

/-- CAM_EDGE (R133, R134). -/
def execCamEdge (offset : Nat) (s : State) : Host.Outcome State Fault Refusal :=
  live (fun s => camEdge s (s.cam.time + offset)) s

end Sys2Proof.Machine
end

