-- ==== Sys2Proof/Machine/Power.lean ====
section
/-!
DEFINITION. The power path manager (chapter 11): presence and qualification, the active source, the power states, the
shed level and the caps.
-/
namespace Sys2Proof.Machine

/-! ### Caps (R189) -/

/-- The Dcap of a shed level (Table 11-2). -/
def dcapLevel (shed : Nat) : Nat := if shed ≤ 1 then 1023 else if shed = 2 then 767 else 511

/-- The sound cap of a shed level (Table 11-2). -/
def soundLevel (shed : Nat) : Nat := if shed ≤ 2 then 255 else 128

/-- Dcap worked out (R189). -/
def dcapNow (s : State) : Nat :=
  match s.ppm.power with
  | .normal => dcapLevel s.ppm.shed
  | .coast => min (dcapLevel s.ppm.shed) s.coastCap
  | .init => 0
  | .hold => 0

/-- Hmax worked out (R189). -/
def hmaxNow (s : State) : Nat :=
  match s.ppm.power with
  | .normal => if s.ppm.shed = 0 then s.smkMax else if s.ppm.shed = 1 then s.smkMax / 2 else 0
  | .coast => 0
  | .init => 0
  | .hold => 0

/-- The sound cap worked out (R189). -/
def soundCapNow (s : State) : Nat :=
  match s.ppm.power with
  | .normal => soundLevel s.ppm.shed
  | .coast => min (soundLevel s.ppm.shed) s.coastVol
  | .init => 0
  | .hold => 0

/-- Dcap is published to TRC if it differs from the one last published. -/
def publishDcap (s : State) : State :=
  if dcapNow s = s.ppm.dcap then s else tractionCap (s.setPpm { s.ppm with dcap := dcapNow s }) (dcapNow s)

/-- Hmax is published to SMK if it differs from the one last published. -/
def publishHmax (s : State) : State :=
  if hmaxNow s = s.ppm.hmax then s else smokeCap (s.setPpm { s.ppm with hmax := hmaxNow s }) (hmaxNow s)

/-- The sound cap is published to SND if it differs from the one last published. -/
def publishSoundCap (s : State) : State :=
  if soundCapNow s = s.ppm.soundCap then s
  else soundCapTaken (s.setPpm { s.ppm with soundCap := soundCapNow s }) (soundCapNow s)

/-- The end of every event at PPM: the caps that differ are published (R189). -/
def powerEnd (s : State) : State := publishSoundCap (publishHmax (publishDcap s))

/-! ### Power states (R185, R186) -/

/-- A new power state is announced to TRC, SMK, SND and LMP (R185). -/
def announce (s : State) (p : PowerState) : State := lampsPower (soundPower (smokePower (tractionPower s p) p) p) p

/-- PPM places a BUFFER_V request with MSQ's queue (R186). -/
def bufferRequest (s : State) : State := s.setMsq (queueRequest s.msq ⟨.bufferV, .ppm⟩)

/-- The time between BUFFER_V requests, 5 ms. -/
def bufferRequestTime : Nat := 5000

/-- NORMAL is entered: the coast and request timers stop, and a hot board sheds at least to level 2 (R186, R188). -/
def enterNormal (s : State) : State :=
  let was := s.ppm.power
  let s := s.setPpm { s.ppm with power := .normal, coastTimer := none, bufferTimer := none,
                                 shed := if s.ppm.hot then max 2 s.ppm.shed else s.ppm.shed }
  let s := announce s .normal
  if was = .coast then publish s (.coasting false) else s

/-- COAST is entered (R185, R186). -/
def enterCoast (s : State) : State :=
  let s := s.setPpm { s.ppm with power := .coast, overTimer := none, underTimer := none,
                                 coastTimer := some (s.coastLimit * 100000),
                                 bufferTimer := some bufferRequestTime }
  publish (announce (bufferRequest s) .coast) (.coasting true)

/-- HOLD is entered, from COAST (R185, R186). -/
def enterHold (s : State) : State :=
  let s := s.setPpm { s.ppm with power := .hold, coastTimer := none }
  publish (announce s .hold) (.coasting false)

/-! ### The active source (R183) -/

/-- What PPM holds of a supply. -/
def supplyOf (p : Ppm) (x : Supply) : SupplyState :=
  match x with
  | .track => p.track
  | .battery => p.battery

/-- What PPM holds of a supply, replaced. -/
def setSupply (s : State) (x : Supply) (v : SupplyState) : State :=
  match x with
  | .track => s.setPpm { s.ppm with track := v }
  | .battery => s.setPpm { s.ppm with battery := v }

/-- The other supply. -/
def otherSupply (x : Supply) : Supply :=
  match x with
  | .track => .battery
  | .battery => .track

/-- A supply as the active source. -/
def activeOf (x : Supply) : Active :=
  match x with
  | .track => .track
  | .battery => .battery

/-- A supply becomes active: the shed timers stop, and the state is NORMAL (R183, R185, R187). -/
def supplyActive (s : State) (x : Supply) : State :=
  let s := s.setPpm { s.ppm with active := activeOf x, overTimer := none, underTimer := none }
  if s.ppm.power = .normal then s else enterNormal s

/-- BUFFER becomes active: NORMAL changes to COAST (R183, R185). -/
def bufferActive (s : State) : State :=
  let s := s.setPpm { s.ppm with active := .buffer, overTimer := none, underTimer := none }
  if s.ppm.power = .normal then enterCoast s else s

/-- A supply ranks above the other in the order of SRC_PREF (R183). -/
def ranksAbove (s : State) (x : Supply) : Bool :=
  match x with
  | .track => !s.batteryFirst
  | .battery => s.batteryFirst

/-- A supply has become QUALIFIED: it becomes active in INIT, over BUFFER, and over the other if it ranks above (R183). -/
def supplySelect (s : State) (x : Supply) : State :=
  if s.ppm.active = activeOf (otherSupply x) then (if ranksAbove s x then supplyActive s x else s)
  else if s.ppm.active = activeOf x then s
  else supplyActive s x

/-- A supply is made QUALIFIED, and selected (R182, R184). -/
def supplyQualified (s : State) (x : Supply) : State :=
  supplySelect (setSupply s x { supplyOf s.ppm x with qualification := .qualified, timer := none }) x

/-! ### Presence (R182, R184) -/

/-- The wait before QUALIFIED: 50 ms for TRACK, 20 ms for BATTERY. -/
def qualificationTime (x : Supply) : Nat :=
  match x with
  | .track => 50000
  | .battery => 20000

/-- The level a voltage or a code is compared with for a supply: 16 × TRACK_MIN or BATT_MIN (R182, R184). -/
def presenceLevel (s : State) (x : Supply) : Nat :=
  match x with
  | .track => 16 * s.trackMin
  | .battery => 16 * s.battMin

/-- What the comparator of a supply reads at a voltage: present at the level and above (R182, notes/assumptions/20). -/
def readsPresent (s : State) (x : Supply) (voltage : BitVec 12) : Bool := presenceLevel s x ≤ voltage.toNat

/-- The comparator of a supply reads a voltage under the settings in force; nothing else follows while the part is in
reset (R182). -/
def comparatorReads (s : State) (x : Supply) (voltage : BitVec 12) : State :=
  setSupply s x { supplyOf s.ppm x with voltage := voltage, present := readsPresent s x voltage }

/-- An ABSENT supply starts to qualify (R182). -/
def startQualifying (s : State) (x : Supply) : State :=
  if (supplyOf s.ppm x).qualification = .absent then
    setSupply s x { supplyOf s.ppm x with qualification := .qualifying, timer := some (qualificationTime x) }
  else s

/-- Presence gained (R182). -/
def presenceGain (s : State) (x : Supply) : State := powerEnd (startQualifying s x)

/-- The channel that reads a supply's voltage. -/
def supplyChannel (x : Supply) : Channel :=
  match x with
  | .track => .trackV
  | .battery => .batteryV

/-- The injected conversion of the voltage of a supply that was active and is lost; a refusal leaves it to the normal
wait (R184). -/
def fastReturnRaise (s : State) (x : Supply) : State :=
  if injectRoom s.msq then
    setSupply (injectRaised s { channel := supplyChannel x, requester := .ppm, cancel := true }) x
      { supplyOf s.ppm x with fastReturn := true }
  else s

/-- The active source is lost: the other supply if it is QUALIFIED, else BUFFER (R183). -/
def activeLost (s : State) (x : Supply) : State :=
  if (supplyOf s.ppm (otherSupply x)).qualification = .qualified then supplyActive s (otherSupply x)
  else bufferActive s

/-- A supply that loses its presence becomes ABSENT (R182). -/
def supplyAbsent (s : State) (x : Supply) : State :=
  setSupply s x { supplyOf s.ppm x with qualification := .absent, timer := none }

/-- Presence lost (R182 to R184). -/
def presenceLoss (s : State) (x : Supply) : State :=
  let was := (supplyOf s.ppm x).qualification
  let s := supplyAbsent s x
  powerEnd
    (if was = .qualified && s.ppm.active = activeOf x then fastReturnRaise (activeLost s x) x else s)

/-- The comparator of a supply has read, where it read `was` before: a change of its reading is an event (R182). -/
def presenceEvent (was : Bool) (x : Supply) (s : State) : State :=
  if (supplyOf s.ppm x).present = was then s
  else if (supplyOf s.ppm x).present then presenceGain s x
  else presenceLoss s x

/-- The comparator of a supply follows the settings now in force, at the voltage it has (R182). -/
def presenceFollows (s : State) (x : Supply) : State :=
  presenceEvent (supplyOf s.ppm x).present x (comparatorReads s x (supplyOf s.ppm x).voltage)

/-- The comparators follow new settings, the track's first (R182, notes/assumptions/20). -/
def settingsInstalled (s : State) : State := presenceFollows (presenceFollows s .track) .battery

/-- The qualification timer of a supply expires (R182). -/
def qualificationExpiry (s : State) (x : Supply) : State :=
  if (supplyOf s.ppm x).timer.isSome && (supplyOf s.ppm x).qualification = .qualifying then
    powerEnd (supplyQualified s x)
  else s

/-- The result of PPM's own injected conversion of a supply (R184). -/
def fastReturnResult (s : State) (x : Supply) (code : Nat) : State :=
  let s := setSupply s x { supplyOf s.ppm x with fastReturn := false }
  if presenceLevel s x ≤ code && (supplyOf s.ppm x).qualification = .qualifying then supplyQualified s x else s

/-! ### Readings (R186 to R188) -/

/-- A BUFFER_V code: in COAST, at or below HOLD_LEVEL, it brings HOLD (R186). -/
def bufferReading (s : State) (code : Nat) : State :=
  if s.ppm.power = .coast && code ≤ s.holdLevel then enterHold s else s

/-- The limit of the active source (R187). -/
def supplyLimit (s : State) : Nat := if s.ppm.active = .battery then s.battLimit else s.trackLimit

/-- The over time, 100 ms, and the under time, 1 s. -/
def overTime : Nat := 100000

/-- The under time, 1 s. -/
def underTime : Nat := 1000000

/-- A timer that starts if it is STOPPED, and otherwise runs on. -/
def startStopped (t : Timer) (length : Nat) : Timer :=
  match t with
  | some n => some n
  | none => some length

/-- A SUPPLY_I code, worked only in NORMAL (R187). -/
def currentReading (s : State) (r : Nat) : State :=
  if s.ppm.power = .normal then
    if supplyLimit s < r then
      s.setPpm { s.ppm with overTimer := startStopped s.ppm.overTimer overTime, underTimer := none }
    else if 10 * r < 9 * supplyLimit s then
      s.setPpm { s.ppm with overTimer := none, underTimer := startStopped s.ppm.underTimer underTime }
    else s.setPpm { s.ppm with overTimer := none, underTimer := none }
  else s

/-- A BOARD_T code: it sets or clears hot, and in NORMAL a hot board sheds at least to level 2 (R188). -/
def boardReading (s : State) (code : Nat) : State :=
  let hot := decide (s.thermHi ≤ code)
  s.setPpm { s.ppm with hot := hot,
                        shed := if hot && s.ppm.power = .normal then max 2 s.ppm.shed else s.ppm.shed }

/-- A completed conversion reaches PPM with its channel, code and producing source (R120). -/
def powerReading (s : State) (c : Channel) (source : Source) (code : Nat) : State :=
  match c with
  | .trackV => powerEnd (if source = .inject then fastReturnResult s .track code else s)
  | .batteryV => powerEnd (if source = .inject then fastReturnResult s .battery code else s)
  | .bufferV => powerEnd (bufferReading s code)
  | .supplyI => powerEnd (currentReading s code)
  | .boardT => powerEnd (boardReading s code)
  | .motorI => s
  | .bemf => s
  | .smokeT => s

/-! ### Timers (R186, R187) -/

/-- The coast timer expires in COAST (R186). -/
def coastExpiry (s : State) : State :=
  if s.ppm.coastTimer.isSome && s.ppm.power = .coast then powerEnd (enterHold s) else s

/-- The buffer request timer expires (R186). -/
def bufferExpiry (s : State) : State :=
  if s.ppm.bufferTimer.isSome then
    powerEnd (bufferRequest (s.setPpm { s.ppm with bufferTimer := some bufferRequestTime }))
  else s

/-- The over timer expires: the shed level rises by 1, up to 3, and the timer restarts (R187). -/
def overExpiry (s : State) : State :=
  if s.ppm.overTimer.isSome then
    powerEnd (s.setPpm { s.ppm with shed := if s.ppm.shed < 3 then s.ppm.shed + 1 else s.ppm.shed,
                                    overTimer := some overTime })
  else s

/-- The shed level may fall: it is above 0, and not at 2 while hot (R187, R188). -/
def shedMayFall (p : Ppm) : Bool := 0 < p.shed && !(p.hot && p.shed ≤ 2)

/-- The under timer expires: the shed level falls by 1 if it may, and the timer restarts (R187, R188). -/
def underExpiry (s : State) : State :=
  if s.ppm.underTimer.isSome then
    powerEnd (s.setPpm { s.ppm with shed := if shedMayFall s.ppm then s.ppm.shed - 1 else s.ppm.shed,
                                    underTimer := some underTime })
  else s

end Sys2Proof.Machine
end

