-- ==== Sys2Proof/Machine/TableStore.lean ====
section
/-!
DEFINITION. The table store (chapter 3): the configuration requests, the commit with its installation, the nonvolatile
write, and the loading at start-up. A request answers with the reply it builds; the dispatcher gives it its address.
-/
namespace Sys2Proof.Machine

/-! ### The edit buffer and the requests (R38 to R44) -/

/-- The editable table, or IDENTITY, that an id from 0 to 6 names: its size (Table 3-1). -/
def sizeOfId (id : Nat) : Option Nat := if id = 6 then some 4 else (tableOfId id).map tableSize

/-- The answer to a configuration request: a RESULT code with its detail, or data. -/
inductive Answer where
  | result (code : ResultCode) (detail : Nat)
  | data (table index : Nat) (bytes : List Byte)
  deriving DecidableEq, Repr

/-- CFG_OPEN carried out: the active copy goes into the edit buffer (R40). -/
def tableOpened (b : Tbs) (t : TableId) : Tbs :=
  { b with openTable := some t, pointer := 0, edit := splice b.edit 0 (tableGet b.active t) }

/-- CFG_OPEN (R40). -/
def cfgOpen (b : Tbs) (id : Nat) : Tbs × Answer :=
  if 6 < id then (b, .result .badTable 0)
  else
    match tableOfId id with
    | none => (b, .result .readOnly 0)
    | some t =>
      if b.writing.isSome then (b, .result .busy 0) else (tableOpened b t, .result .accepted (tableSize t))

/-- CFG_POINT (R41). -/
def cfgPoint (b : Tbs) (index : Nat) : Tbs × Answer :=
  match b.openTable with
  | none => (b, .result .notOpen 0)
  | some t =>
    if tableSize t ≤ index then (b, .result .range 0) else ({ b with pointer := index }, .result .accepted index)

/-- CFG_WRITE (R42). -/
def cfgWrite (b : Tbs) (data : List Byte) : Tbs × Answer :=
  match b.openTable with
  | none => (b, .result .notOpen 0)
  | some t =>
    if tableSize t < b.pointer + data.length then (b, .result .range 0)
    else
      ({ b with edit := splice b.edit b.pointer data, pointer := b.pointer + data.length },
       .result .accepted (b.pointer + data.length))

/-- The bytes that CFG_READ of an id takes from: the edit buffer for the open table, IDENTITY's own, or the active
copy (R43). -/
def readSource (b : Tbs) (id : Nat) : List Byte :=
  match tableOfId id with
  | none => identityBytes
  | some t => if b.openTable = some t then b.edit else tableGet b.active t

/-- CFG_READ (R43). -/
def cfgRead (b : Tbs) (id index count : Nat) : Answer :=
  match sizeOfId id with
  | none => .result .badTable 0
  | some size =>
    if size < index + count then .result .range 0 else .data id index (slice (readSource b id) index count)

/-- The open table becomes none, and the pointer 0. -/
def tableClosed (b : Tbs) : Tbs := { b with openTable := none, pointer := 0 }

/-- CFG_CLOSE (R44). -/
def cfgClose (b : Tbs) : Tbs × Answer :=
  match b.openTable with
  | none => (b, .result .notOpen 0)
  | some _ => (tableClosed b, .result .accepted 0)

/-! ### The traction owner (R25) -/

/-- The entry of the valid CONSIST entry, or 0 for the PRIMARY entry. -/
def ownerEntry (s : State) : Nat := ((List.range 8).find? (fun k => isConsist (s.entry k))).getD 0

/-- The owner is a CONSIST entry with Reversed = yes (R26). -/
def ownerReversed (s : State) : Bool := isConsist (s.entry (ownerEntry s)) && (s.entry (ownerEntry s)).reversed

/-! ### Installation (R32, R51) -/

/-- The owner changes: from PRIMARY to CONSIST or back, or in its Address (R32). -/
def ownerChanges (old new : AddressEntry) : Bool := isConsist old ≠ isConsist new || old.address ≠ new.address

/-- The owner stays a CONSIST entry with the same Address, and its Reversed flag changes (R32). -/
def reversedChanges (old new : AddressEntry) : Bool := isConsist new && old.reversed ≠ new.reversed

/-- DSP compares the owner under the new table with the owner under the old (R32). -/
def addressInstalled (s : State) (old : AddressEntry) : State :=
  let new := s.entry (ownerEntry s)
  if ownerChanges old new then lossRestart s
  else if reversedChanges old new then statedInverted s
  else s

/-- The content of an edit buffer that is committed. -/
def editContent (b : Tbs) (t : TableId) : List Byte := commitContent t (b.edit.take (tableSize t))

/-- A table's active copy replaced. -/
def activePut (s : State) (t : TableId) (bytes : List Byte) : State :=
  s.setTbs { s.tbs with active := tablePut s.tbs.active t bytes }

/-- The owner acts on the installation of a table in `s`, in place of what `old` held (Table 3-3, and R182 for the
presence comparators, which follow the settings in force). -/
def ownerInstalls (old s : State) (t : TableId) : State :=
  match t with
  | .settings => settingsInstalled s
  | .address => addressInstalled s (old.entry (ownerEntry old))
  | .speed => retarget s
  | .map => mapInstalled s old.tbs.active.map
  | .cues => cuesInstalled s
  | .lamps => lampsInstalled s

/-- Steps 1 and 2 of a commit (R45). -/
def tableInstalled (s : State) (t : TableId) (bytes : List Byte) : State := ownerInstalls s (activePut s t bytes) t

/-! ### The nonvolatile store (R45, R52) -/

/-- A table's write-in-progress mark set (step 1 of R52). -/
def markSet (m : PerTable Image) (t : TableId) : PerTable Image := tablePut m t { tableGet m t with mark := true }

/-- The nonvolatile write of a table begins; the bytes and the check word are in the image at its completion
(notes/assumptions/11). -/
def writeBegun (s : State) (t : TableId) : State :=
  (s.setTbs { tableClosed s.tbs with defaulted := false, writing := some t }).setStore (markSet s.store t)

/-- CFG_COMMIT carried out (R45). -/
def tableCommitted (s : State) (t : TableId) : State := writeBegun (tableInstalled s t (editContent s.tbs t)) t

/-- CFG_COMMIT (R45). -/
def cfgCommit (s : State) : State × Answer :=
  if s.tbs.writing.isSome then (s, .result .busy 0)
  else
    match s.tbs.openTable with
    | none => (s, .result .notOpen 0)
    | some t =>
      match commitOffence t (s.tbs.edit.take (tableSize t)) with
      | some k => (s, .result .invalid k)
      | none => (tableCommitted s t, .result .accepted (checkWord (editContent s.tbs t)))

/-- The nonvolatile write completes: the image holds the active copy and its check word, and the mark is clear (R52). -/
def nvCompleted (s : State) : State :=
  match s.tbs.writing with
  | none => s
  | some t =>
    (s.setTbs { s.tbs with writing := none }).setStore
      (tablePut s.store t (goodImage (tableGet s.tbs.active t)))

/-! ### Start-up and factory restore (R53, R54) -/

/-- What a table loads as: its stored bytes if the image passes, else its defaults (R53). -/
def loadedTable (m : PerTable Image) (t : TableId) : List Byte :=
  if imagePasses t (tableGet m t) then (tableGet m t).bytes else defaultTable t

/-- The six tables in ascending order of id. -/
def tableIds : List TableId := [.settings, .address, .speed, .map, .cues, .lamps]

/-- Every table as it loads (R53). -/
def loadedTables (m : PerTable Image) : PerTable (List Byte) :=
  { settings := loadedTable m .settings, address := loadedTable m .address, speed := loadedTable m .speed,
    map := loadedTable m .map, cues := loadedTable m .cues, lamps := loadedTable m .lamps }

/-- Some table fails, and its defaults are installed (R53). -/
def someDefaulted (m : PerTable Image) : Bool := tableIds.any (fun t => !imagePasses t (tableGet m t))

/-- A factory restore cut short after `written` tables: those are good defaults, the one in hand keeps its mark, and the
rest are as they were (R54). -/
def restoreCutShort (m : PerTable Image) (written : Nat) : PerTable Image :=
  let m := (tableIds.take written).foldl (fun m t => tablePut m t (goodImage (defaultTable t))) m
  match tableIds.drop written with
  | [] => m
  | t :: _ => markSet m t

end Sys2Proof.Machine
end

