-- ==== Sys2Proof/Machine/Resets.lean ====
section
/-!
DEFINITION. Resets (section 11.6): the taking, the restore and the release.
-/
namespace Sys2Proof.Machine

/-- Every block goes to its reset state, with the active copies, TABLE_DEFAULTED, the reset cause and the phase as given;
the nonvolatile store, the sample memory, the supplies' voltages and the comparators' readings outlive it (R191). -/
def blocksReset (s : State) (active : PerTable (List Byte)) (defaulted : Bool) (cause : ResetKind) (phase : Phase) :
    State :=
  { cli := cliReset
    dsp := dspReset
    tbs := tbsReset active defaulted
    fnu := fnuReset
    trc := trcReset
    mbr := mbrReset
    msq := msqReset
    cam := camReset
    snd := sndReset
    smk := smkReset
    lmp := lmpReset
    ppm := ppmReset s.ppm.track s.ppm.battery cause phase
    store := s.store
    samples := s.samples
    free := s.free
    pending := s.pending }

/-- A factory restore in progress is interrupted, after `written` tables (R54). -/
def restoreInterrupted (s : State) (written : Nat) : State :=
  if s.ppm.phase = .restoring then s.setStore (restoreCutShort s.store written) else s

/-- A reset is taken: an erase, a program or a restore in flight is interrupted, and every block goes to its reset state;
the part then stands in the phase given. The active copies and the reset cause are replaced at the release. -/
def resetTaken (s : State) (written : Nat) (phase : Phase) : State :=
  let s := restoreInterrupted (sampleInterrupted s) written
  blocksReset s s.tbs.active s.tbs.defaulted s.ppm.cause phase

/-- The writing of the defaults completes (R54): the part proceeds as for a COMMAND reset, with the cause FACTORY. -/
def restoreDone (s : State) : State :=
  match s.ppm.phase with
  | .restoring => (s.setStore defaultStore).setPpm { s.ppm with phase := .held .factory }
  | .running => s
  | .held _ => s

/-- The comparator of a supply is read at the release, under the settings loaded; a supply found present becomes
QUALIFYING (step 3 of R191). -/
def presentQualifies (s : State) (x : Supply) : State :=
  let s := comparatorReads s x (supplyOf s.ppm x).voltage
  if (supplyOf s.ppm x).present then startQualifying s x else s

/-- The scan timer starts (step 3 of R191, R129). -/
def scanStarted (s : State) : State := s.setMsq { s.msq with scanTimer := some (s.scanPeriod * 1000) }

/-- The reset that is held is released (step 3 of R191). -/
def released (s : State) (kind : ResetKind) : State :=
  let s := announce (scanStarted (blocksReset s (loadedTables s.store) (someDefaulted s.store) kind .running)) .init
  presentQualifies (presentQualifies s .track) .battery

/-- The reset is released; nothing is released while the part runs, or while a restore is being written. -/
def resetReleased (s : State) : State :=
  match s.ppm.phase with
  | .held kind => released s kind
  | .running => s
  | .restoring => s

end Sys2Proof.Machine
end

