-- ==== Sys2Proof/Machine/Dispatcher.lean ====
section
/-!
DEFINITION. The frame dispatcher (chapter 2): the taking of a frame, relaying, acceptance and permission, the traction
owner, and what each kind of frame hands to its owner.
-/
namespace Sys2Proof.Machine

/-! ### Relaying (R21) -/

/-- Two addresses are equal in every bit that a mask sets. -/
def maskedEqual (mask a b : Nat) : Bool := Nat.land a mask = Nat.land b mask

/-- A valid RELAY entry matches an address. -/
def relayMatches (e : AddressEntry) (a : Nat) : Bool := e.valid && e.kind = .relay && maskedEqual e.mask a e.address

/-- Some RELAY entry of the active table matches a frame. -/
def relayed (s : State) (f : Frame) : Bool :=
  (List.range 8).any (fun k => relayMatches (s.entry k) (frameAddress f))

/-- A frame is taken from the head of the inbound queue, and a copy placed in the relay queue if an entry matches
(R20, R21). -/
def frameTaken (s : State) (f : Frame) (rest : List Frame) : State :=
  let s := s.setCli (inboundTake s.cli rest)
  if relayed s f then s.setCli (relayPlace s.cli f) else s

/-! ### Acceptance and permission (R22 to R24) -/

/-- How a frame was accepted. -/
inductive Via where
  | broadcast
  | entry (k : Nat)
  deriving DecidableEq, Repr

/-- A well-formed frame with Address 0 is accepted: a HALT, or a DRIVE whose step byte is 0 (R22). -/
def broadcastAccepted (f : Frame) : Bool :=
  frameKind f = 1 || (frameKind f = 0 && byteAt (framePayload f) 1 = 0)

/-- A valid PRIMARY, CONSIST or GROUP entry matches an address (R23). -/
def entryMatches (e : AddressEntry) (a : Nat) : Bool :=
  e.valid &&
    match e.kind with
    | .primary => e.address = a
    | .consist => e.address = a
    | .group => maskedEqual e.mask a e.address
    | .relay => false

/-- The first entry that matches accepts the frame (R22, R23). -/
def acceptance (s : State) (f : Frame) : Option Via :=
  if frameAddress f = 0 then (if broadcastAccepted f then some .broadcast else none)
  else ((List.range 8).find? (fun k => entryMatches (s.entry k) (frameAddress f))).map .entry

/-- The kinds of frame permitted through a kind of entry (R24). -/
def entryPermits (e : EntryKind) (kind : Nat) : Bool :=
  match e with
  | .primary => kind ≤ 12
  | .consist => kind ≤ 2
  | .group => kind = 1 || kind = 2
  | .relay => false

/-- A frame's kind is permitted to what accepted it. -/
def permitted (s : State) (f : Frame) (via : Via) : Bool :=
  match via with
  | .broadcast => true
  | .entry k => entryPermits (s.entry k).kind (frameKind f)

/-- A frame's dispatch up to the handing on: `none` where it is discarded (steps 2 to 5 of R20). -/
def handedVia (s : State) (f : Frame) : Option Via :=
  if isReplyFrame f || !frameWellFormed f then none
  else
    match acceptance s f with
    | none => none
    | some via => if permitted s f via then some via else none

/-- The dispatch of the head frame, if it belongs to a row of the table; `hand` hands its content on (R20). -/
def dispatch (row : Frame → Bool) (hand : State → Frame → Via → State) (s : State) : State :=
  match s.cli.inbound with
  | [] => s
  | f :: rest =>
    if row f then
      match handedVia s f with
      | none => frameTaken s f rest
      | some via => hand (frameTaken s f rest) f via
    else s

/-! ### The traction owner (R25, R26, R28, R31) -/

/-- A frame counts as from the traction owner. -/
def fromOwner (s : State) (via : Via) : Bool :=
  match via with
  | .broadcast => true
  | .entry k => k = ownerEntry s

/-- SIGNAL_LOST is cleared, and FNU sees C4 clear before TRC acts (R31). -/
def signalCleared (s : State) : State :=
  if s.dsp.signalLost then fnuSettle (publish (s.setDsp { s.dsp with signalLost := false }) (.signalLost false)) else s

/-- The owner is heard: the command-loss timer restarts, and SIGNAL_LOST is cleared (R28, R31). -/
def ownerHeard (s : State) : State := signalCleared (lossRestart s)

/-- The direction that a DRIVE frame hands to TRC (R26). -/
def handedDirection (s : State) (d : Dir) : Dir := if ownerReversed s then dirInverted d else d

/-- DRIVE (R25, R26). -/
def handDrive (s : State) (f : Frame) (via : Via) : State :=
  let p := framePayload f
  if fromOwner s via then driveCommand (ownerHeard s) (byteAt p 1) (handedDirection s (dirOfByte (byteAt p 0))) else s

/-- HALT NORMAL: step 0 in the current stated direction (R25). -/
def haltStated (s : State) : State := driveCommand s 0 s.trc.stated

/-- HALT NORMAL (R25). -/
def handHaltNormal (s : State) (_f : Frame) (via : Via) : State :=
  if fromOwner s via then haltStated (ownerHeard s) else s

/-- HALT EMERGENCY (R25): obeyed from any entry, heard from the owner only. -/
def handHaltEmergency (s : State) (_f : Frame) (via : Via) : State :=
  emergencyHalt (if fromOwner s via then ownerHeard s else s)

/-! ### FUNC (R27) -/

/-- FUNC: the states of the group that lie in the window of the accepting entry. -/
def handFunc (s : State) (f : Frame) (via : Via) : State :=
  let p := framePayload f
  match via with
  | .broadcast => s
  | .entry k => functionsHanded s (byteAt p 0) (byteAt p 1) (s.entry k).low (s.entry k).high

/-! ### Status (R34) -/

/-- STATUS_REQ: the record is offered to the reply queue, and if it joins the flags are cleared (R16, R34, R36). -/
def handStatus (s : State) (_f : Frame) (_via : Via) : State :=
  let t := offerReply s (makeFrame 14 s.primaryAddress (statusRecord s))
  if replyRoom s.cli then clearFaultFlags (t.setCli (clearLinkFlags t.cli)) else t

/-! ### The configuration and sample requests (R40 to R45, R146, R147) -/

/-- The frame that an answer is, from an address, to a request of a kind (R5). -/
def answerFrame (address kind : Nat) (a : Answer) : Frame :=
  match a with
  | .result code detail => resultFrame address kind code detail
  | .data table index bytes => dataFrame address table index bytes

/-- The reply of a request that leaves `s`, built with the PRIMARY Address that `old` had when it was taken (R32). -/
def answered (old s : State) (kind : Nat) (a : Answer) : State :=
  offerReply s (answerFrame old.primaryAddress kind a)

/-- CFG_OPEN. -/
def handOpen (s : State) (f : Frame) (_via : Via) : State :=
  let r := cfgOpen s.tbs (byteAt (framePayload f) 0)
  answered s (s.setTbs r.1) 4 r.2

/-- CFG_WRITE. -/
def handWrite (s : State) (f : Frame) (_via : Via) : State :=
  let r := cfgWrite s.tbs (framePayload f)
  answered s (s.setTbs r.1) 5 r.2

/-- CFG_POINT. -/
def handPoint (s : State) (f : Frame) (_via : Via) : State :=
  let r := cfgPoint s.tbs (word16At (framePayload f) 0)
  answered s (s.setTbs r.1) 6 r.2

/-- CFG_READ. -/
def handRead (s : State) (f : Frame) (_via : Via) : State :=
  let p := framePayload f
  answered s s 7 (cfgRead s.tbs (byteAt p 0) (word16At p 1) (byteAt p 3))

/-- CFG_COMMIT. -/
def handCommit (s : State) (_f : Frame) (_via : Via) : State :=
  let r := cfgCommit s
  answered s r.1 8 r.2

/-- CFG_CLOSE. -/
def handClose (s : State) (_f : Frame) (_via : Via) : State :=
  let r := cfgClose s.tbs
  answered s (s.setTbs r.1) 9 r.2

/-- The write state of the sample memory, replaced. -/
def setWriteState (s : State) (w : SampleWrite) : State := s.setSnd { s.snd with writeState := w }

/-- SAMPLE_ERASE (R146). -/
def handErase (s : State) (f : Frame) (_via : Via) : State :=
  let sector := word16At (framePayload f) 0
  match eraseAnswer s.snd sector with
  | .accepted => answered s (setWriteState s (.erasing sector)) 10 (.result .accepted sector)
  | code => answered s s 10 (.result code 0)

/-- SAMPLE_WRITE (R147). -/
def handProgram (s : State) (f : Frame) (_via : Via) : State :=
  let p := framePayload f
  let address := word24At p 0
  let data := p.drop 3
  match writeAnswer s.snd address data.length with
  | .accepted => answered s (setWriteState s (.programming address data)) 11 (.result .accepted data.length)
  | code => answered s s 11 (.result code 0)

/-! ### RESET (R33) -/

/-- RESET: confirmed, the reset is taken within the dispatch; otherwise it is refused. -/
def handReset (phase : Phase) (s : State) (f : Frame) (_via : Via) : State :=
  if word16At (framePayload f) 0 = s.primaryAddress then resetTaken s 0 phase
  else answered s s 12 (.result .badConfirm 0)

/-! ### The command-loss timer (R29) -/

/-- SIGNAL_LOST is set, and a change of C4 is published (step 2 of R29). -/
def signalSet (s : State) : State :=
  if s.dsp.signalLost then s else publish (s.setDsp { s.dsp with signalLost := true }) (.signalLost true)

/-- The command-loss timer expires: TRC is notified if LOSS_ACTION is STOP (R29). -/
def lossExpiry (s : State) : State :=
  if s.dsp.lossTimer.isSome then
    let s := signalSet (s.setDsp { s.dsp with lossTimer := none })
    if s.lossStops then lossNotice s else s
  else s

end Sys2Proof.Machine
end

