-- ==== Sys2Proof/Machine/FrameEvents.lean ====
section
/-!
DEFINITION. The meanings of the frames that DSP hands to TRC, FNU or nobody, or answers itself, and of the command-loss timer
(chapter 2).
-/
namespace Sys2Proof.Machine

/-- REPLY_FRAME_TAKEN (R20): relayed if an entry matches, and discarded. -/
def execReplyFrameTaken (s : State) : Host.Outcome State Fault Refusal :=
  live (dispatch isReplyFrame (fun s _ _ => s)) s

/-- DRIVE (R25, R26, R86, R87). -/
def execDrive (s : State) : Host.Outcome State Fault Refusal :=
  settled (dispatch (isKind 0) handDrive) s

/-- HALT_NORMAL (R25). -/
def execHaltNormal (s : State) : Host.Outcome State Fault Refusal :=
  settled (dispatch (isKindBut 1 0 1) handHaltNormal) s

/-- HALT_EMERGENCY (R25, R88). -/
def execHaltEmergency (s : State) : Host.Outcome State Fault Refusal :=
  settled (dispatch (isKindBut 1 0 0) handHaltEmergency) s

/-- FUNC (R27, R56). -/
def execFunc (s : State) : Host.Outcome State Fault Refusal :=
  settled (dispatch (isKind 2) handFunc) s

/-- STATUS_REQ (R34 to R36). -/
def execStatusReq (s : State) : Host.Outcome State Fault Refusal :=
  live (dispatch (isKind 3) handStatus) s

/-- COMMAND_LOSS_TIMER_EXPIRY (R29). -/
def execCommandLossTimerExpiry (s : State) : Host.Outcome State Fault Refusal :=
  settled lossExpiry s

end Sys2Proof.Machine
end

