-- ==== Sys2Proof/Machine/LampEvents.lean ====
section
/-!
DEFINITION. The meanings of the timers of LMP (chapter 10).
-/
namespace Sys2Proof.Machine

/-- FLICKER_ADVANCE (R176). -/
def execFlickerAdvance (s : State) : Host.Outcome State Fault Refusal :=
  live flickerStep s

/-- BLINK_TIMER_EXPIRY (R177). -/
def execBlinkTimerExpiry (output : Fin 8) (s : State) : Host.Outcome State Fault Refusal :=
  live (fun s => blinkExpiry s output) s

/-- SOFT_TIMER_EXPIRY (R178). -/
def execSoftTimerExpiry (output : Fin 8) (s : State) : Host.Outcome State Fault Refusal :=
  live (fun s => softExpiry s output) s

end Sys2Proof.Machine
end

