-- ==== Sys2Proof/Machine/LinkEvents.lean ====
section
/-!
DEFINITION. The meanings of the events of the serial lines (chapter 1).
-/
namespace Sys2Proof.Machine

/-- CHARACTER_RECEIVED (R6, R9 to R11). -/
def execCharacterReceived (byte : Byte) (marker : Bool) (s : State) : Host.Outcome State Fault Refusal :=
  live (fun s => s.setCli (characterTaken s.cli byte marker)) s

/-- BROKEN_CHARACTER (R8). -/
def execBrokenCharacter (s : State) : Host.Outcome State Fault Refusal :=
  live (fun s => s.setCli (assemblerDiscard s.cli)) s

/-- INTER_BYTE_TIMER_EXPIRY (R7). -/
def execInterByteTimerExpiry (s : State) : Host.Outcome State Fault Refusal :=
  live (fun s => s.setCli (interByteExpiry s.cli)) s

/-- REPLY_FRAME_SENT (R13). -/
def execReplyFrameSent (s : State) : Host.Outcome State Fault Refusal :=
  live (fun s => s.setCli (replySent s.cli)) s

/-- RELAY_FRAME_SENT (R15). -/
def execRelayFrameSent (s : State) : Host.Outcome State Fault Refusal :=
  live (fun s => s.setCli (relaySent s.cli)) s

end Sys2Proof.Machine
end

