-- ==== Sys2Proof/Machine/PowerEvents.lean ====
section
/-!
DEFINITION. The meanings of the events of PPM (chapter 11). The presence comparators read in reset too; nothing else follows
there. A voltage that contradicts the command leaves the state as it is (notes/assumptions/2).
-/
namespace Sys2Proof.Machine

/-- PRESENCE_GAINED (R182). -/
def execPresenceGained (supply : SupplyVoltage) (s : State) : Host.Outcome State Fault Refusal :=
  settled (presenceEvent (supplyOf s.ppm supply.source).present supply.source)
    (if readsPresent s supply.source supply.voltage then comparatorReads s supply.source supply.voltage else s)

/-- PRESENCE_LOST (R182 to R184). -/
def execPresenceLost (supply : SupplyVoltage) (s : State) : Host.Outcome State Fault Refusal :=
  settled (presenceEvent (supplyOf s.ppm supply.source).present supply.source)
    (if readsPresent s supply.source supply.voltage then s else comparatorReads s supply.source supply.voltage)

/-- QUALIFICATION_TIMER_EXPIRY (R182). -/
def execQualificationTimerExpiry (supply : Supply) (s : State) : Host.Outcome State Fault Refusal :=
  settled (fun s => qualificationExpiry s supply) s

/-- COAST_TIMER_EXPIRY (R186). -/
def execCoastTimerExpiry (s : State) : Host.Outcome State Fault Refusal :=
  settled coastExpiry s

/-- BUFFER_REQUEST_TIMER_EXPIRY (R186). -/
def execBufferRequestTimerExpiry (s : State) : Host.Outcome State Fault Refusal :=
  settled bufferExpiry s

/-- OVER_TIMER_EXPIRY (R187). -/
def execOverTimerExpiry (s : State) : Host.Outcome State Fault Refusal :=
  settled overExpiry s

/-- UNDER_TIMER_EXPIRY (R187, R188). -/
def execUnderTimerExpiry (s : State) : Host.Outcome State Fault Refusal :=
  settled underExpiry s

end Sys2Proof.Machine
end

