-- ==== Sys2Proof/Machine/ResetEvents.lean ====
section
/-!
DEFINITION. The meanings of the resets, their restore and their release (chapter 11). A reset by the rail is taken in every
phase.
-/
namespace Sys2Proof.Machine

/-- RESET_NORMAL (R33). -/
def execResetNormal (s : State) : Host.Outcome State Fault Refusal :=
  live (dispatch (isKindBut 12 2 1) (handReset (.held .command))) s

/-- RESET_FACTORY (R33, R54). -/
def execResetFactory (s : State) : Host.Outcome State Fault Refusal :=
  live (dispatch (isKindBut 12 2 0) (handReset .restoring)) s

/-- FACTORY_RESTORE_COMPLETE (R54). -/
def execFactoryRestoreComplete (s : State) : Host.Outcome State Fault Refusal :=
  .next (restoreDone s)

/-- POWER_ON_RESET (R190, R191). -/
def execPowerOnReset (written : Fin 6) (s : State) : Host.Outcome State Fault Refusal :=
  .next (resetTaken s written (.held .powerOn))

/-- BROWNOUT_RESET (R190, R191). -/
def execBrownoutReset (written : Fin 6) (s : State) : Host.Outcome State Fault Refusal :=
  .next (resetTaken s written (.held .brownout))

/-- RESET_RELEASE (R191, R53). -/
def execResetRelease (s : State) : Host.Outcome State Fault Refusal :=
  .next (resetReleased s)

end Sys2Proof.Machine
end

