-- ==== Sys2Proof/Machine/SampleEvents.lean ====
section
/-!
DEFINITION. The meanings of the sample memory requests, of their completions and of the output sample (chapter 9).
-/
namespace Sys2Proof.Machine

/-- SAMPLE_ERASE (R146). -/
def execSampleErase (s : State) : Host.Outcome State Fault Refusal :=
  live (dispatch (isKind 10) handErase) s

/-- SAMPLE_WRITE (R147). -/
def execSampleWrite (s : State) : Host.Outcome State Fault Refusal :=
  live (dispatch (isKind 11) handProgram) s

/-- ERASE_COMPLETE (R146). -/
def execEraseComplete (s : State) : Host.Outcome State Fault Refusal :=
  live eraseDone s

/-- PROGRAM_COMPLETE (R147). -/
def execProgramComplete (s : State) : Host.Outcome State Fault Refusal :=
  live programDone s

/-- OUTPUT_SAMPLE (R161). -/
def execOutputSample (inTime : BitVec 6) (s : State) : Host.Outcome State Fault Refusal :=
  live (fun s => outputSampled s inTime) s

end Sys2Proof.Machine
end

