-- ==== Sys2Proof/Machine/Conversions.lean ====
section
/-!
DEFINITION. The completion of a conversion (section 7.3): the result table, the end of a gap, the delivery to the
requester, the notice to PPM, and the arbiter.
-/
namespace Sys2Proof.Machine

/-- Step 2 of R119: MBR is told of a GAP conversion's completion and ends the gap. -/
def gapReported (s : State) (c : Conversion) : State := if c.source = .gap then gapEnd s else s

/-- Steps 3 and 4 of R119. PPM gets a code once: by the delivery of what it asked for, by a notice of a SCAN write of
channels 2, 3, 4, 5 and 7 (R120). -/
def codeDelivered (s : State) (c : Conversion) (code : Nat) : State :=
  match c.requester with
  | .mbr => judgeTrip s code
  | .trc => bemfResult s code
  | .smk => smokeResult s code
  | .ppm => powerReading s c.channel c.source code
  | .scan => powerReading s c.channel c.source code

/-- The code that a conversion of MOTOR_I reads, where `code` is what stands at its input: what it has sampled, and under a
hold of the current sense the code that the hold's first conversion read (R110, notes/assumptions/22). -/
def motorCode (m : Mbr) (code : BitVec 12) : BitVec 12 :=
  match m.sample with
  | .present => if m.currentHold then m.heldCode.getD code else code
  | .own => code
  | .held k => k

/-- The code that the running conversion reads; no other channel has a hold (R110). -/
def codeRead (m : Mbr) (c : Channel) (code : BitVec 12) : BitVec 12 := if c = .motorI then motorCode m code else code

/-- A conversion of MOTOR_I has read its code, which is the held one from then on if it sampled the hold that stands
(R110). -/
def motorRead (m : Mbr) (code : BitVec 12) : Mbr :=
  { m with heldCode := if m.currentHold && m.sample = .present then some (motorCode m code) else m.heldCode,
           sample := .present }

/-- The current sense as the completion of a conversion leaves it (R110). -/
def senseRead (s : State) (c : Channel) (code : BitVec 12) : State :=
  if c = .motorI then s.setMbr (motorRead s.mbr code) else s

/-- Step 5 of R119: the arbiter acts. -/
def arbiterActs (s : State) : State := s.setMsq (arbitrate s.msq)

/-- The running conversion completes with `code` at its input (R119); the code of a void conversion is discarded (R117). -/
def conversionDone (s : State) (code : BitVec 12) : State :=
  match s.msq.converting with
  | none => s
  | some c =>
    if c.void then arbiterActs (s.setMsq { s.msq with converting := none })
    else
      let read := (codeRead s.mbr c.channel code).toNat
      let s := senseRead s c.channel code
      arbiterActs (codeDelivered (gapReported (s.setMsq (conversionTaken s.msq c read)) c) c read)

end Sys2Proof.Machine
end

