-- ==== Sys2Proof/Machine/SequencerEvents.lean ====
section
/-!
DEFINITION. The meanings of the events of MSQ (chapter 7).
-/
namespace Sys2Proof.Machine

/-- CONVERSION_COMPLETE (R119, R120). -/
def execConversionComplete (code : BitVec 12) (s : State) : Host.Outcome State Fault Refusal :=
  settled (fun s => conversionDone s code) s

/-- SCAN_TIMER_EXPIRY (R129). -/
def execScanTimerExpiry (s : State) : Host.Outcome State Fault Refusal :=
  live scanExpires s

end Sys2Proof.Machine
end

