-- ==== Sys2Proof/Machine/SmokeEvents.lean ====
section
/-!
DEFINITION. The meanings of the timers of SMK (chapter 10).
-/
namespace Sys2Proof.Machine

/-- SMOKE_REQUEST_TIMER_EXPIRY (R168). -/
def execSmokeRequestTimerExpiry (s : State) : Host.Outcome State Fault Refusal :=
  live smokeRequestExpiry s

/-- AGE_TIMER_EXPIRY (R168). -/
def execAgeTimerExpiry (s : State) : Host.Outcome State Fault Refusal :=
  live smokeAgeExpiry s

/-- PUFF_TIMER_EXPIRY (R172). -/
def execPuffTimerExpiry (s : State) : Host.Outcome State Fault Refusal :=
  live puffExpiry s

end Sys2Proof.Machine
end

