-- ==== Sys2Proof/Machine/TableEvents.lean ====
section
/-!
DEFINITION. The meanings of the configuration requests and of the completion of the nonvolatile write (chapter 3).
-/
namespace Sys2Proof.Machine

/-- CFG_OPEN (R40). -/
def execCfgOpen (s : State) : Host.Outcome State Fault Refusal :=
  live (dispatch (isKind 4) handOpen) s

/-- CFG_POINT (R41). -/
def execCfgPoint (s : State) : Host.Outcome State Fault Refusal :=
  live (dispatch (isKind 6) handPoint) s

/-- CFG_WRITE (R42). -/
def execCfgWrite (s : State) : Host.Outcome State Fault Refusal :=
  live (dispatch (isKind 5) handWrite) s

/-- CFG_READ (R43). -/
def execCfgRead (s : State) : Host.Outcome State Fault Refusal :=
  live (dispatch (isKind 7) handRead) s

/-- CFG_COMMIT (R45, R51, R52). -/
def execCfgCommit (s : State) : Host.Outcome State Fault Refusal :=
  settled (dispatch (isKind 8) handCommit) s

/-- CFG_CLOSE (R44). -/
def execCfgClose (s : State) : Host.Outcome State Fault Refusal :=
  live (dispatch (isKind 9) handClose) s

/-- NV_WRITE_COMPLETE (R52). -/
def execNvWriteComplete (s : State) : Host.Outcome State Fault Refusal :=
  live nvCompleted s

end Sys2Proof.Machine
end

