-- ==== Sys2Proof/Machine/TractionEvents.lean ====
section
/-!
DEFINITION. The meanings of the ticks and timers of TRC (chapter 5).
-/
namespace Sys2Proof.Machine

/-- RAMP_TICK (R73 to R75). -/
def execRampTick (s : State) : Host.Outcome State Fault Refusal :=
  settled rampTick s

/-- BEMF_TIMER_EXPIRY (R78, R124, R105). -/
def execBemfTimerExpiry (s : State) : Host.Outcome State Fault Refusal :=
  live bemfExpiry s

/-- STALL_TIMER_EXPIRY (R94, R95). -/
def execStallTimerExpiry (s : State) : Host.Outcome State Fault Refusal :=
  settled stallExpiry s

end Sys2Proof.Machine
end

