-- ==== Sys2Proof/Machine/Dispatch.lean ====
section
/-!
DEFINITION. Each command's meaning, by one direct call an arm.
-/
namespace Sys2Proof.Machine

def exec (i : Instr) (s : State) : Host.Outcome State Fault Refusal :=
  match i with
  | .characterReceived byte marker => Sys2Proof.Machine.execCharacterReceived byte marker s
  | .brokenCharacter => Sys2Proof.Machine.execBrokenCharacter s
  | .interByteTimerExpiry => Sys2Proof.Machine.execInterByteTimerExpiry s
  | .replyFrameTaken => Sys2Proof.Machine.execReplyFrameTaken s
  | .drive => Sys2Proof.Machine.execDrive s
  | .haltNormal => Sys2Proof.Machine.execHaltNormal s
  | .haltEmergency => Sys2Proof.Machine.execHaltEmergency s
  | .func => Sys2Proof.Machine.execFunc s
  | .statusReq => Sys2Proof.Machine.execStatusReq s
  | .cfgOpen => Sys2Proof.Machine.execCfgOpen s
  | .cfgPoint => Sys2Proof.Machine.execCfgPoint s
  | .cfgWrite => Sys2Proof.Machine.execCfgWrite s
  | .cfgRead => Sys2Proof.Machine.execCfgRead s
  | .cfgCommit => Sys2Proof.Machine.execCfgCommit s
  | .cfgClose => Sys2Proof.Machine.execCfgClose s
  | .nvWriteComplete => Sys2Proof.Machine.execNvWriteComplete s
  | .sampleErase => Sys2Proof.Machine.execSampleErase s
  | .sampleWrite => Sys2Proof.Machine.execSampleWrite s
  | .eraseComplete => Sys2Proof.Machine.execEraseComplete s
  | .programComplete => Sys2Proof.Machine.execProgramComplete s
  | .resetNormal => Sys2Proof.Machine.execResetNormal s
  | .resetFactory => Sys2Proof.Machine.execResetFactory s
  | .factoryRestoreComplete => Sys2Proof.Machine.execFactoryRestoreComplete s
  | .powerOnReset written => Sys2Proof.Machine.execPowerOnReset written s
  | .brownoutReset written => Sys2Proof.Machine.execBrownoutReset written s
  | .resetRelease => Sys2Proof.Machine.execResetRelease s
  | .replyFrameSent => Sys2Proof.Machine.execReplyFrameSent s
  | .relayFrameSent => Sys2Proof.Machine.execRelayFrameSent s
  | .commandLossTimerExpiry => Sys2Proof.Machine.execCommandLossTimerExpiry s
  | .rampTick => Sys2Proof.Machine.execRampTick s
  | .bemfTimerExpiry => Sys2Proof.Machine.execBemfTimerExpiry s
  | .stallTimerExpiry => Sys2Proof.Machine.execStallTimerExpiry s
  | .pwmPeriodEnd => Sys2Proof.Machine.execPwmPeriodEnd s
  | .settleTimerExpiry => Sys2Proof.Machine.execSettleTimerExpiry s
  | .overcurrentTrip milliamps => Sys2Proof.Machine.execOvercurrentTrip milliamps s
  | .retryTimerExpiry => Sys2Proof.Machine.execRetryTimerExpiry s
  | .tripFreeTimerExpiry => Sys2Proof.Machine.execTripFreeTimerExpiry s
  | .conversionComplete code => Sys2Proof.Machine.execConversionComplete code s
  | .scanTimerExpiry => Sys2Proof.Machine.execScanTimerExpiry s
  | .camTick => Sys2Proof.Machine.execCamTick s
  | .silenceWatchElapsed => Sys2Proof.Machine.execSilenceWatchElapsed s
  | .virtualChuff => Sys2Proof.Machine.execVirtualChuff s
  | .camEdge offset => Sys2Proof.Machine.execCamEdge offset s
  | .outputSample inTime => Sys2Proof.Machine.execOutputSample inTime s
  | .smokeRequestTimerExpiry => Sys2Proof.Machine.execSmokeRequestTimerExpiry s
  | .ageTimerExpiry => Sys2Proof.Machine.execAgeTimerExpiry s
  | .puffTimerExpiry => Sys2Proof.Machine.execPuffTimerExpiry s
  | .flickerAdvance => Sys2Proof.Machine.execFlickerAdvance s
  | .blinkTimerExpiry output => Sys2Proof.Machine.execBlinkTimerExpiry output s
  | .softTimerExpiry output => Sys2Proof.Machine.execSoftTimerExpiry output s
  | .presenceGained supply => Sys2Proof.Machine.execPresenceGained supply s
  | .presenceLost supply => Sys2Proof.Machine.execPresenceLost supply s
  | .qualificationTimerExpiry supply => Sys2Proof.Machine.execQualificationTimerExpiry supply s
  | .coastTimerExpiry => Sys2Proof.Machine.execCoastTimerExpiry s
  | .bufferRequestTimerExpiry => Sys2Proof.Machine.execBufferRequestTimerExpiry s
  | .overTimerExpiry => Sys2Proof.Machine.execOverTimerExpiry s
  | .underTimerExpiry => Sys2Proof.Machine.execUnderTimerExpiry s

end Sys2Proof.Machine
end

