-- ==== Sys2Proof/Safety.lean ====
section
/-!
DEFINITION. What the claims speak of: the frame of a command, and the laws that hold of every state of a run, block by
block.
-/
namespace Sys2Proof.Machine

/-! ### Frames -/

/-- The parts of the state, for saying which of them a command may change. -/
inductive Part where
  | cli
  | dsp
  | tbs
  | fnu
  | trc
  | mbr
  | msq
  | cam
  | snd
  | smk
  | lmp
  | ppm
  | store
  | samples
  | free
  | pending
  deriving DecidableEq, Repr

/-- A part is the same in two states. -/
def partSame (p : Part) (s t : State) : Prop :=
  match p with
  | .cli => t.cli = s.cli
  | .dsp => t.dsp = s.dsp
  | .tbs => t.tbs = s.tbs
  | .fnu => t.fnu = s.fnu
  | .trc => t.trc = s.trc
  | .mbr => t.mbr = s.mbr
  | .msq => t.msq = s.msq
  | .cam => t.cam = s.cam
  | .snd => t.snd = s.snd
  | .smk => t.smk = s.smk
  | .lmp => t.lmp = s.lmp
  | .ppm => t.ppm = s.ppm
  | .store => t.store = s.store
  | .samples => t.samples = s.samples
  | .free => t.free = s.free
  | .pending => t.pending = s.pending

/-- Every part but those listed is the same in `t` as in `s`. -/
def SameBut (changed : List Part) (s t : State) : Prop := ∀ p, p ∉ changed → partSame p s t

/-! ### Commands one after another, and the rows of the frames -/

/-- The commands carried out one after another. -/
def execAll (cs : List Instr) (s : State) : Host.Outcome State Fault Refusal :=
  match cs with
  | [] => .next s
  | c :: rest =>
    match exec c s with
    | .next t => execAll rest t
    | .fault r => .fault r
    | .refused r => .refused r

/-- A frame as it arrives on CMD_RX, character by character, each by its levels (R1). -/
def frameArrival (f : Frame) : List Instr :=
  (frameCharacters f).filterMap (fun c => characterHeard (characterLevels c.1 c.2))

/-- The head frames that a frame command takes; `none` for a command that takes no frame. -/
def frameRow (i : Instr) : Option (Frame → Bool) :=
  match i with
  | .replyFrameTaken => some isReplyFrame
  | .drive => some (isKind 0)
  | .haltNormal => some (isKindBut 1 0 1)
  | .haltEmergency => some (isKindBut 1 0 0)
  | .func => some (isKind 2)
  | .statusReq => some (isKind 3)
  | .cfgOpen => some (isKind 4)
  | .cfgWrite => some (isKind 5)
  | .cfgPoint => some (isKind 6)
  | .cfgRead => some (isKind 7)
  | .cfgCommit => some (isKind 8)
  | .cfgClose => some (isKind 9)
  | .sampleErase => some (isKind 10)
  | .sampleWrite => some (isKind 11)
  | .resetNormal => some (isKindBut 12 2 1)
  | .resetFactory => some (isKindBut 12 2 0)
  | _ => none

/-- The part runs and a frame waits at the head of the inbound queue. -/
abbrev HeadFrame (s : State) (f : Frame) (rest : List Frame) : Prop :=
  running s = true ∧ s.cli.inbound = f :: rest

/-- The part runs, and the dispatch of the head frame hands its content on (R20). -/
abbrev HandedOn (s : State) (f : Frame) (rest : List Frame) (via : Via) : Prop :=
  HeadFrame s f rest ∧ handedVia s f = some via

/-- Some valid RELAY entry's Address agrees with the frame's in every bit that the entry's Mask sets (R21). -/
def relayWanted (s : State) (f : Frame) : Prop :=
  ∃ k, k < 8 ∧ (s.entry k).valid = true ∧ (s.entry k).kind = .relay ∧
    ∀ n, (s.entry k).mask.testBit n = true → (frameAddress f).testBit n = (s.entry k).address.testBit n

/-- A valid PRIMARY or CONSIST entry's Address is the frame's, or a valid GROUP entry's agrees with it in every bit that
its Mask sets (R23). -/
def entryAgrees (e : AddressEntry) (f : Frame) : Prop :=
  e.valid = true ∧
    ((e.kind = .primary ∨ e.kind = .consist) ∧ e.address = frameAddress f ∨
      e.kind = .group ∧ ∀ n, e.mask.testBit n = true → (frameAddress f).testBit n = e.address.testBit n)

/-! ### The command link (R10, R12, R14, R11) -/

/-- A frame that may wait in a queue: its Length is at most 16 and gives its size, and its bytes sum to 0. -/
abbrev goodFrame (f : Frame) : Prop := frameLength f ≤ 16 ∧ f.length = 4 + frameLength f ∧ sumBytes f % 256 = 0

/-- A frame in assembly: fewer than three bytes and its size not known, or at least three and the size its Length gives,
not yet reached. -/
abbrev assemblySound (a : Assembly) : Prop :=
  (1 ≤ a.bytes.length ∧ a.bytes.length ≤ 2 ∧ a.total = none) ∨
    (3 ≤ a.bytes.length ∧ frameLength a.bytes ≤ 16 ∧ a.total = some (4 + frameLength a.bytes) ∧
      a.bytes.length < 4 + frameLength a.bytes)

/-- The queues keep to their sizes, the senders send while there is something to send, and CMD_HOLD keeps to its two
thresholds. -/
abbrev LinkSafe (s : State) : Prop :=
  s.cli.inbound.length ≤ 8 ∧ s.cli.replies.length ≤ 4 ∧ s.cli.relays.length ≤ 4 ∧
    s.cli.replySending = !s.cli.replies.isEmpty ∧ s.cli.relaySending = !s.cli.relays.isEmpty ∧
    (s.cli.hold = true → 4 ≤ s.cli.inbound.length) ∧ (s.cli.hold = false → s.cli.inbound.length ≤ 5) ∧
    s.cli.checkErrors ≤ 255

/-- Only good frames wait, and the assembler keeps what R6 says of it. -/
abbrev FramesSafe (s : State) : Prop :=
  (∀ f ∈ s.cli.inbound, goodFrame f) ∧ (∀ f ∈ s.cli.relays, goodFrame f) ∧
    (∀ a ∈ s.cli.assembler, assemblySound a) ∧ s.cli.interByte = s.cli.assembler.map (fun _ => interByteTime)

/-! ### The table store (R38, R42, R52) -/

/-- The active copies have their sizes and satisfy their validation rules (R38). -/
abbrev ActiveSafe (s : State) : Prop :=
  ∀ t ∈ tableIds, (tableGet s.tbs.active t).length = tableSize t ∧ contentValid t (tableGet s.tbs.active t) = true

/-- The stored images have their tables' sizes, and the one being written bears its mark. -/
abbrev StoreSafe (s : State) : Prop :=
  (∀ t ∈ tableIds, (tableGet s.store t).bytes.length = tableSize t) ∧
    ∀ t ∈ s.tbs.writing, (tableGet s.store t).mark = true

/-- The edit buffer keeps its size, the pointer stays within the open table, no table is open while one is being written,
and a part in reset writes none (R52, R191). -/
abbrev EditSafe (s : State) : Prop :=
  s.tbs.edit.length = 1024 ∧ s.tbs.pointer ≤ (s.tbs.openTable.map tableSize).getD 0 ∧
    (s.tbs.writing.isSome = true → s.tbs.openTable = none) ∧ (s.ppm.phase ≠ .running → s.tbs.writing = none)

/-! ### Traction and the bridge (R85, R76, R82, R84, R101, R118) -/

/-- A traction state that holds V at 0. -/
abbrev holdsStill (t : Traction) : Prop := t = .emergency ∨ t = .lockout ∨ t = .stalled ∨ t = .suspended

/-- While disarmed the step and the target are 0; V is 0 in the states that hold it there; a halted or failsafe
locomotive is disarmed. -/
abbrev LatchSafe (s : State) : Prop :=
  (s.trc.armed = false → s.trc.step = 0 ∧ s.trc.target = 0) ∧ (holdsStill s.trc.state → s.trc.ramp = 0) ∧
    (s.trc.state = .failsafe ∨ s.trc.state = .emergency ∨ s.trc.state = .lockout ∨ s.trc.state = .stalled →
      s.trc.armed = false) ∧
    (s.trc.ramp = 0 → s.trc.drive = s.trc.stated)

/-- The duty keeps to the cap, the regulator's integral to its range, and the step to its range. -/
abbrev DutySafe (s : State) : Prop :=
  s.trc.duty ≤ dutyBound s.trc ∧ s.trc.integral ≤ 261888 ∧ s.trc.speed ≤ 1023 ∧ s.trc.load ≤ 255 ∧ s.trc.step ≤ 240

/-- The target and the ramp value keep to their ranges. -/
abbrev RangeSafe (s : State) : Prop := s.trc.target ≤ 1023 ∧ s.trc.ramp ≤ 65472

/-- MBR holds the demand that TRC's state gives. -/
abbrev DemandSafe (s : State) : Prop :=
  s.mbr.mode = demandedMode s.trc.state ∧ s.mbr.drive = s.trc.drive ∧ s.mbr.demanded = demandedDuty s.trc

/-- The bridge state agrees with the mode demanded. -/
abbrev BridgeSafe (s : State) : Prop :=
  (s.mbr.mode = .off → s.mbr.bridge = .off) ∧ (s.mbr.mode = .emergencyStop → s.mbr.bridge = .brake ∨ s.mbr.bridge = .off) ∧
    (s.mbr.mode = .drive → s.mbr.bridge = .drive ∨ s.mbr.bridge = .gap ∨ s.mbr.bridge = .tripped) ∧
    (s.mbr.bridge = .drive ↔ s.mbr.period.isSome = true) ∧ (s.mbr.bridge ≠ .drive → s.mbr.applied = 0) ∧
    (s.mbr.retryTimer.isSome = true → s.mbr.bridge = .tripped)

/-- The gap phases agree with the bridge state, MSQ's gap source with the gap phase, and TRC's outstanding request with
the gap source. -/
abbrev GapSafe (s : State) : Prop :=
  (s.mbr.gap = .pending → s.mbr.bridge = .drive) ∧
    (s.mbr.gap = .settling ∨ s.mbr.gap = .ready ↔ s.mbr.bridge = .gap) ∧
    (s.mbr.settleTimer.isSome = true ↔ s.mbr.gap = .settling) ∧
    (s.msq.gap = .offered ↔ s.mbr.gap = .pending ∨ s.mbr.gap = .settling) ∧
    (s.msq.gap = .pending ∨ s.msq.gap = .converting ↔ s.mbr.gap = .ready) ∧
    (s.trc.outstanding = true ↔ s.msq.gap ≠ .noRequest)

/-- The current sense holds only while the bridge is TRIPPED or OFF after a trip, it keeps a code only while it holds, and
what is said of a running conversion of MOTOR_I is said while one runs (R110). The time past in a PWM period lies within
it. -/
abbrev SenseSafe (s : State) : Prop :=
  (s.mbr.currentHold = true → s.mbr.bridge = .tripped ∨ s.mbr.bridge = .off) ∧
    (s.mbr.heldCode.isSome = true → s.mbr.currentHold = true) ∧
    (s.mbr.sample ≠ .present → motorConverting s.msq = true) ∧ (∀ p ∈ s.mbr.period, p.past < p.length)

/-- The applied duty keeps to the cap in force, and is 0 in the states that hold the motor (R102). -/
abbrev AppliedSafe (s : State) : Prop :=
  s.mbr.applied ≤ s.trc.dcap ∧ (holdsStill s.trc.state → s.mbr.applied = 0)

/-- What every event at TRC from `s` to `u` does beside what it does to TRC's own values: the conditions are published as
one change with the drive direction if one of them has changed (R98), MBR holds the demand that TRC's state gives (R84),
and MSQ and the outstanding request are untouched unless the demand abandoned a gap (R108, R126). -/
def TractionEvent (s u : State) : Prop :=
  u.trc.published = tractionConditions u.trc ∧
    u.fnu = { s.fnu with waiting := s.fnu.waiting ++
                (if u.trc.published ≠ s.trc.published ∨ u.trc.drive ≠ s.trc.drive then
                  [.traction u.trc.published u.trc.drive] else []) } ∧
    DemandSafe u ∧
    (u.msq = s.msq ∧ u.trc.outstanding = s.trc.outstanding ∨
      u.msq = gapWithdraw s.msq ∧ u.trc.outstanding = false ∧ s.mbr.gap ≠ .noGap) ∧
    SameBut [.fnu, .trc, .mbr, .msq] s u

/-! ### The sequencer (R118, R121, R127) -/

/-- A record that the queue can hold: a SMOKE_T request of SMK or a BUFFER_V request of PPM. -/
abbrev routineRequest (r : Request) : Prop := r = ⟨.smokeT, .smk⟩ ∨ r = ⟨.bufferV, .ppm⟩

/-- What the converter is doing agrees with the slot, the gap source and the pass. -/
def conversionSound (q : Msq) (c : Conversion) : Prop :=
  match c.source with
  | .inject => c.void = false ∧ q.slot = .converting ⟨c.channel, c.requester, true⟩
  | .gap => c.channel = .bemf ∧ c.requester = .trc ∧ (c.void = false ↔ q.gap = .converting)
  | .queue => c.void = false ∧ routineRequest ⟨c.channel, c.requester⟩
  | .scan => c.void = false ∧ c.requester = .scan ∧ c.channel ≠ .bemf

/-- A record that the inject slot can hold: MOTOR_I for MBR, TRACK_V or BATTERY_V for PPM, all with cancel. -/
abbrev injectSound (r : Inject) : Prop :=
  r = ⟨.motorI, .mbr, true⟩ ∨ r = ⟨.trackV, .ppm, true⟩ ∨ r = ⟨.batteryV, .ppm, true⟩

/-- What the inject slot holds is one of its records, and is being converted if the slot says so. -/
def slotSound (q : Msq) : Prop :=
  match q.slot with
  | .empty => True
  | .waiting r => injectSound r ∧ (q.converting.map (fun c => c.source)) = some .gap
  | .converting r => injectSound r ∧ (q.converting.map (fun c => c.source)) = some .inject

/-- The queue holds records of its two kinds, no two equal, channel 1 is never scanned, the codes have 12 bits, and an
idle converter has nothing pending. -/
def SequencerSafe (s : State) : Prop :=
  (∀ r ∈ s.msq.queue, routineRequest r) ∧ s.msq.queue.Nodup ∧ (∀ r ∈ s.msq.results, r ≤ 4095) ∧
    s.msq.results.length = 8 ∧ .bemf ∉ s.msq.pass ∧ (∀ c ∈ s.msq.converting, conversionSound s.msq c) ∧
    (s.msq.gap = .converting → s.msq.converting.map (fun c => c.source) = some .gap) ∧ slotSound s.msq ∧
    (s.msq.converting = none → s.msq.gap ≠ .pending ∧ s.msq.queue = [] ∧ s.msq.pass = [])

/-- A BEMF conversion whose gap stands runs only within a settled gap (R118). -/
abbrev BemfSafe (s : State) : Prop :=
  ∀ c ∈ s.msq.converting, c.channel = .bemf → c.void = false → s.mbr.bridge = .gap ∧ s.mbr.gap = .ready

/-! ### Cam, sound, smoke, lamps -/

/-- The phase stays below one turn, the index below 8, and the sensor is used only while QUALIFIED. -/
abbrev CamSafe (s : State) : Prop :=
  s.cam.accumulator < camTurn ∧ s.cam.index ≤ 7 ∧ (s.cam.source = .sensor → s.cam.qualification = .qualified) ∧
    s.cam.inconsistentRun ≤ 1 ∧ (∀ n, s.cam.qualification = .qualifying n → 1 ≤ n ∧ n ≤ 3)

/-- The cue numbers playing in the pool. -/
def poolCues (n : Snd) : List Nat := n.pool.filterMap (fun v => v.cue)

/-- Across the pool and the resume stack each cue appears at most once; the stack holds at most 4, each a LOOP cue
(R159); an engine that is OFF plays nothing (R152). -/
abbrev PoolSafe (s : State) : Prop :=
  (poolCues s.snd ++ s.snd.stack).Nodup ∧ s.snd.stack.length ≤ 4 ∧ s.snd.pool.length = 4 ∧
    (∀ c ∈ s.snd.stack, (s.cueRecord c).loop = true)

/-- The engine is ON exactly as mute and the power state give it, and while it is OFF no voice plays (R152). -/
abbrev EngineSafe (s : State) : Prop :=
  s.snd.on = engineOn s.snd.mute s.snd.power ∧
    (s.snd.on = false → s.snd.chuff.cue = none ∧ s.snd.background.cue = none ∧ poolCues s.snd = [] ∧ s.snd.stack = [])

/-- The sample memory has its canonical form, and what is being written lies within it. -/
abbrev SampleSafe (s : State) : Prop :=
  memoryWf s.samples = true ∧
    match s.snd.writeState with
    | .idle => True
    | .erasing sector => sector ≤ 4095
    | .programming a data => a + data.length ≤ 16777216

/-- The heater is off unless the unit regulates, the power state is NORMAL and the shed level is below 2; and it keeps to
Hmax (R171). -/
abbrev HeaterSafe (s : State) : Prop :=
  s.smk.heater ≤ s.smk.hmax ∧
    (0 < s.smk.heater →
      (s.smk.state = .heating ∨ s.smk.state = .ready) ∧ s.ppm.power = .normal ∧ s.ppm.shed < 2)

/-- The caps and the power state that PPM published are the ones its receivers hold; a cap above 0 comes from a power
state that gives one. -/
abbrev CapsSafe (s : State) : Prop :=
  s.trc.dcap = s.ppm.dcap ∧ s.smk.hmax = s.ppm.hmax ∧ s.snd.cap = s.ppm.soundCap ∧ s.smk.power = s.ppm.power ∧
    s.snd.power = s.ppm.power ∧ s.lmp.power = s.ppm.power ∧
    (0 < s.ppm.hmax → s.ppm.power = .normal ∧ s.ppm.shed < 2) ∧
    (0 < s.ppm.dcap → s.ppm.power = .normal ∨ s.ppm.power = .coast)

/-- SMK's timers run only in the states that use them, and the fan and the puff keep to theirs. -/
abbrev SmokeSafe (s : State) : Prop :=
  (s.smk.state = .off ↔ s.smk.enable = false) ∧
    (s.smk.requestTimer.isSome = true ↔ s.smk.state = .heating ∨ s.smk.state = .ready ∨ s.smk.state = .suspended) ∧
    (s.smk.puffTimer.isSome = true → s.smk.state = .ready) ∧
    (s.smk.ageTimer.isSome = true →
      s.smk.fresh = true ∧ (s.smk.state = .heating ∨ s.smk.state = .ready ∨ s.smk.state = .suspended)) ∧
    (s.smk.state = .heating ∨ s.smk.state = .ready ∨ s.smk.state = .suspended →
      s.smk.fresh = true → s.smk.ageTimer.isSome = true)

/-- The lamps are dark in INIT and HOLD (R179), and every level lies from 0 to 63. -/
abbrev LampSafe (s : State) : Prop :=
  s.lmp.outputs.length = 8 ∧
    ∀ o ∈ s.lmp.outputs, o.shown ≤ 63 ∧ o.soft ≤ 63 ∧ (lampsDark s.lmp.power = true → o.shown = 0 ∧ o.blinkTimer = none ∧ o.softTimer = none)

/-! ### The function unit (R60, R61) -/

/-- The kept activity is that of the entries, and the levels delivered are those the active entries give. -/
abbrev MapSafe (s : State) : Prop :=
  s.fnu.activity = (mapEntries s.tbs.active.map).map (entryActive s.fnu) ∧
    s.fnu.delivered = outputsFor (activeEntries s.fnu (mapEntries s.tbs.active.map))

/-- What FNU last delivered is what its targets hold. -/
abbrev DeliveredSafe (s : State) : Prop :=
  s.smk.enable = s.fnu.delivered.smoke ∧ s.snd.mute = s.fnu.delivered.mute ∧ s.trc.shunt = s.fnu.delivered.shunt ∧
    s.trc.momentumOff = s.fnu.delivered.momentumOff

/-- FNU's copies as they will stand once it has taken what waits. -/
def copiesToCome (f : Fnu) : Fnu := f.waiting.foldl copiesAfter f

/-- TRC has published the conditions that it holds, and FNU's copies come to what their owners hold (R57, R58, R98). -/
abbrev CopiesSafe (s : State) : Prop :=
  s.trc.published = tractionConditions s.trc ∧ (copiesToCome s.fnu).drive = s.trc.drive ∧
    (copiesToCome s.fnu).conditions =
      { moving := s.trc.published.moving, accelerating := s.trc.published.accelerating,
        decelerating := s.trc.published.decelerating, loaded := s.trc.published.loaded,
        signalLost := s.dsp.signalLost, coasting := s.ppm.power = .coast, stalled := s.trc.published.stalled,
        smokeReady := s.smk.state = .ready }

/-- The triggers (`true`) and releases (`false`) of cues delivered to SND, in order (R62). -/
def cuesDelivered (cues : List (Nat × Bool)) (s : State) : State :=
  cues.foldl (fun s c => if c.2 then soundTrigger s c.1 else soundRelease s c.1) s

/-- What the deliveries of one evaluation do from `s` to `u` (R61, R62, R67): each output whose new value differs from the one
last delivered reaches its target once, no other does, and SND takes the triggers and releases in order. Where mute changes
too, its place among them is not said here. -/
def Deliveries (s u : State) (o : Outputs) (cues : List (Nat × Bool)) : Prop :=
  let d := s.fnu.delivered
  SameBut [.fnu, .trc, .mbr, .msq, .snd, .smk, .lmp] s u ∧ u.fnu.delivered = o ∧
    u.fnu.functions = s.fnu.functions ∧ u.fnu.conditions = s.fnu.conditions ∧ u.fnu.drive = s.fnu.drive ∧
    (∀ n, n < 8 → lampAt u.lmp n =
      let new := o.lamps.getD n none
      if d.lamps.getD n none = new then lampAt s.lmp n else lampAt (lampDemanded s n new).lmp n) ∧
    u.smk = (if d.smoke = o.smoke then s.smk else (smokeEnable s o.smoke).smk) ∧
    (d.mute = o.mute → u.snd = (cuesDelivered cues s).snd) ∧
    (d.mute ≠ o.mute → u.snd.mute = o.mute ∧
      (cues = [] → d.shunt = o.shunt → u.snd = (soundMute s o.mute).snd)) ∧
    u.trc.momentumOff = (if d.momentumOff = o.momentumOff then s.trc.momentumOff else o.momentumOff) ∧
    u.trc = { (if d.shunt = o.shunt then s.trc else (tractionShunt s o.shunt).trc) with
              momentumOff := u.trc.momentumOff }

/-- The stall test made at the end of an event from `s` to `u` at TRC: while it holds, the stall timer, which stood at `t`, runs
on or starts with STALL_TIME, and it stops otherwise (R94). -/
def StallTested (s u : State) (t : Timer) : Prop :=
  u.trc.stallTimer =
    if (u.trc.state = .running ∨ u.trc.state = .reversing) ∧ s.regOn = true ∧ s.stallDuty ≤ u.trc.duty ∧
      u.trc.speed ≤ s.stallSpeed then some (t.getD (100000 * s.stallTime)) else none

/-! ### The power path (R183, R185 to R188) -/

/-- SND once the engine state is `on`, with MOVING as given: an engine that stays as it was keeps all; one that comes ON starts
its background voice with the choice, or idle if its cue is empty; one that goes OFF stops every voice and empties the
resume stack (R152, R154). -/
def engineFollows (s : State) (moving on : Bool) : Snd :=
  let cue := if moving then s.bgRunCue else s.bgIdleCue
  let background : Voice :=
    if (s.cueRecord cue).length = 0 then voiceFree
    else { cue := some cue, position := 0, held := true, volume := (s.cueRecord cue).volume, order := 0 }
  if on = s.snd.on then s.snd
  else if on then { s.snd with on := true, background := background }
  else { s.snd with on := false, chuff := voiceFree, background := voiceFree, stack := [],
                    pool := s.snd.pool.map (fun _ => voiceFree) }

/-- What the announcement of a power state and the caps after it leave at the four receivers, from `s` to `u`: TRC is
SUSPENDED or leaves SUSPENDED (R96, R97), the engine comes ON or goes OFF (R152), SMK and LMP take the state as R173 and
R179 say, and the caps that differ are theirs (R185, R189). -/
def Announced (s u : State) (p : PowerState) : Prop :=
  let sound := engineFollows s u.trc.published.moving (!s.snd.mute && (p = .normal || p = .coast))
  u.trc.state = (match p with
    | .init => .suspended
    | .hold => .suspended
    | .coast => s.trc.state
    | .normal => if s.trc.state = .suspended then (if s.trc.armed = true ∧ 0 < s.trc.target then .running else .idle)
                 else s.trc.state) ∧
    u.trc.ramp = (if p = .init ∨ p = .hold then 0 else s.trc.ramp) ∧ u.trc.armed = s.trc.armed ∧
    u.trc.step = s.trc.step ∧ u.trc.stated = s.trc.stated ∧ u.trc.target = s.trc.target ∧
    u.trc.dcap = (if u.ppm.dcap = s.ppm.dcap then s.trc.dcap else u.ppm.dcap) ∧
    (s.trc.published.moving = decide (0 < s.trc.ramp) →
      u.snd = { sound with power := p, cap := if u.ppm.soundCap = s.ppm.soundCap then s.snd.cap else u.ppm.soundCap }) ∧
    u.smk = (if u.ppm.hmax = s.ppm.hmax then (smokePower s p).smk else (smokeCap (smokePower s p) u.ppm.hmax).smk) ∧
    u.lmp = (lampsPower s p).lmp

/-- The active source and the power state agree (R183, Table 11-1); the timers run only in their states; a hot board sheds
at least to level 2 in NORMAL. -/
abbrev PowerSafe (s : State) : Prop :=
  (s.ppm.power = .init ↔ s.ppm.active = .noSource) ∧
    (s.ppm.power = .normal ↔ s.ppm.active = .track ∨ s.ppm.active = .battery) ∧
    (s.ppm.active = .track → s.ppm.track.qualification = .qualified) ∧
    (s.ppm.active = .battery → s.ppm.battery.qualification = .qualified) ∧
    (s.ppm.coastTimer.isSome = true ↔ s.ppm.power = .coast) ∧
    (s.ppm.bufferTimer.isSome = true ↔ s.ppm.power = .coast ∨ s.ppm.power = .hold) ∧
    (s.ppm.overTimer.isSome = true ∨ s.ppm.underTimer.isSome = true → s.ppm.power = .normal) ∧
    s.ppm.shed ≤ 3 ∧ (s.ppm.power = .normal → s.ppm.hot = true → 2 ≤ s.ppm.shed)

/-- The comparator of a source reads the voltage it has against the settings in force; a source that is not present is
ABSENT, and its timer runs exactly while it is QUALIFYING (R182). -/
abbrev SupplySafe (s : State) : Prop :=
  ∀ x, (supplyOf s.ppm x).present = readsPresent s x (supplyOf s.ppm x).voltage ∧
    (s.ppm.phase ≠ .running → (supplyOf s.ppm x).qualification = .absent) ∧
    ((supplyOf s.ppm x).present = false → (supplyOf s.ppm x).qualification = .absent) ∧
    ((supplyOf s.ppm x).timer.isSome = true ↔ (supplyOf s.ppm x).qualification = .qualifying)

/-- While a reset is held or a restore is written, every block is in its reset state, with no publication waiting, and so
every actuator is off: the bridge open, the heater, the fan and the lamps at 0, and the audio output 0 (R191). -/
abbrev ResetSafe (s : State) : Prop :=
  s.ppm.phase ≠ .running →
    s.mbr = mbrReset ∧ s.smk = smkReset ∧ s.lmp = lmpReset ∧ s.snd = sndReset ∧ s.trc = trcReset ∧ s.cli = cliReset ∧
      s.fnu = fnuReset ∧ s.dsp = dspReset ∧ s.msq = msqReset ∧ s.cam = camReset

/-- What the taking of a reset leaves (R191, R148, R54): every block in its reset state, with the active copies,
TABLE_DEFAULTED and the reset cause kept until the release; the sample memory but for what an erase or a program in flight
was changing, and the store but for what a restore in progress had written. -/
def ResetTaken (s : State) (written : Nat) (phase : Phase) (t : State) : Prop :=
  (t = { s with
    cli := cliReset, dsp := dspReset, tbs := tbsReset s.tbs.active s.tbs.defaulted, fnu := fnuReset, trc := trcReset
    mbr := mbrReset, msq := msqReset, cam := camReset, snd := sndReset, smk := smkReset, lmp := lmpReset
    ppm := ppmReset s.ppm.track s.ppm.battery s.ppm.cause phase
    store := t.store, samples := t.samples, free := t.free }) ∧
  (s.snd.writeState = .idle → t.samples = s.samples) ∧
  (∀ sector, s.snd.writeState = .erasing sector → ∀ a,
    if 4096 * sector ≤ a ∧ a ≤ 4096 * sector + 4095 then
      readCell s.samples a &&& readCell t.samples a = readCell s.samples a
    else readCell t.samples a = readCell s.samples a) ∧
  (∀ (address : Nat) (data : List Byte), s.snd.writeState = .programming address data → ∀ a,
    if address ≤ a ∧ a < address + data.length then
      readCell s.samples a &&& readCell t.samples a = readCell t.samples a ∧
        readCell s.samples a &&& data.getD (a - address) 0 &&& readCell t.samples a =
          readCell s.samples a &&& data.getD (a - address) 0
    else readCell t.samples a = readCell s.samples a) ∧
  (s.ppm.phase ≠ .restoring → t.store = s.store) ∧
  (s.ppm.phase = .restoring → ∀ n x, tableIds[n]? = some x →
    tableGet t.store x = if n < written then goodImage (defaultTable x)
                         else if n = written then { tableGet s.store x with mark := true } else tableGet s.store x)

end Sys2Proof.Machine
end

