-- ==== Sys2Proof/Certificates/Slice0/Obligations.lean ====
section
/-!
DEFINITION. The statements for the provers.
-/
open Sys2Proof Sys2Proof.Machine

/-! ### The step -/

/-- The command at the front of the queue is carried out on the rest; an empty queue only lets FNU take what waits for it
(notes/assumptions/1). -/
def Obligations.StepTakesTheFrontCommand : Prop :=
  (∀ (s : State) (c : Instr) (rest : List Instr), s.pending = c :: rest → step s = exec c (s.setPending rest)) ∧
    (∀ s : State, s.pending = [] → step s = .next (fnuSettle s)) ∧
    (∀ s : State, s.pending = [] → s.fnu.waiting = [] → step s = .next s)

/-- No command stops the part, in any state, and none touches the commands that wait. That a command whose event cannot
occur in the state, such as the expiry of a stopped timer or a frame command without its head frame, still answers a next
state is the model's guard (notes/assumptions/2). -/
def Obligations.EveryCommandAnswersANextState : Prop :=
  ∀ (i : Instr) (s : State), ∃ t, exec i s = .next t ∧ t.pending = s.pending

/-- While a reset is held or a restore is written, only the resets, their completion and release, and the presence
comparators' readings change anything (R191; that the comparators read on is the model's, notes/assumptions/4, and so is
that a voltage which contradicts its command changes nothing, notes/assumptions/2). -/
def Obligations.PartInResetIsLeftAsItIs : Prop :=
  ∀ s : State, running s = false →
    (∀ i : Instr, i ≠ .factoryRestoreComplete → i ≠ .resetRelease → (∀ w, i ≠ .powerOnReset w) →
      (∀ w, i ≠ .brownoutReset w) → (∀ x, i ≠ .presenceGained x) → (∀ x, i ≠ .presenceLost x) →
      exec i s = .next s) ∧
    ∀ v : BitVec 12,
      (16 * s.trackMin ≤ v.toNat →
        exec (.presenceGained ⟨.track, v⟩) s =
            .next (s.setPpm { s.ppm with track := { s.ppm.track with voltage := v, present := true } }) ∧
          exec (.presenceLost ⟨.track, v⟩) s = .next s) ∧
      (v.toNat < 16 * s.trackMin →
        exec (.presenceLost ⟨.track, v⟩) s =
            .next (s.setPpm { s.ppm with track := { s.ppm.track with voltage := v, present := false } }) ∧
          exec (.presenceGained ⟨.track, v⟩) s = .next s) ∧
      (16 * s.battMin ≤ v.toNat →
        exec (.presenceGained ⟨.battery, v⟩) s =
            .next (s.setPpm { s.ppm with battery := { s.ppm.battery with voltage := v, present := true } }) ∧
          exec (.presenceLost ⟨.battery, v⟩) s = .next s) ∧
      (v.toNat < 16 * s.battMin →
        exec (.presenceLost ⟨.battery, v⟩) s =
            .next (s.setPpm { s.ppm with battery := { s.ppm.battery with voltage := v, present := false } }) ∧
          exec (.presenceGained ⟨.battery, v⟩) s = .next s)

/-! ### The command link -/

/-- R6 with R9 to R11: what a whole character does, by the assembler's state and the marker. -/
def Obligations.CharacterFollowsTheTable : Prop :=
  ∀ (s : State) (b : Byte) (marker : Bool), running s = true →
    ∃ t, exec (.characterReceived b marker) s = .next t ∧ SameBut [.cli] s t ∧
      match s.cli.assembler, marker with
      | none, false => t.cli = s.cli
      | none, true => t.cli = { s.cli with assembler := some { bytes := [b], total := none }, interByte := some 5000 }
      | some _, true =>
        t.cli = { s.cli with assembler := some { bytes := [b], total := none }, interByte := some 5000,
                             truncated := true }
      | some a, false =>
        let f := a.bytes ++ [b]
        let total := if a.bytes.length = 2 then some (4 + b.toNat) else a.total
        if a.bytes.length = 2 ∧ 16 < b.toNat then
          t.cli = { s.cli with assembler := none, interByte := none, truncated := true }
        else if total ≠ some f.length then
          t.cli = { s.cli with assembler := some { bytes := f, total := total }, interByte := some 5000 }
        else if sumBytes f % 256 ≠ 0 then
          t.cli = { s.cli with assembler := none, interByte := none,
                               checkErrors := if s.cli.checkErrors < 255 then s.cli.checkErrors + 1 else 255 }
        else if s.cli.inbound.length < 8 then
          t.cli = { s.cli with assembler := none, interByte := none, inbound := s.cli.inbound ++ [f],
                               hold := s.cli.hold || s.cli.inbound.length = 5 }
        else t.cli = { s.cli with assembler := none, interByte := none, frameDropped := true }

/-- R7 and R8: a broken character, or the expiry of a running inter-byte timer, discards the frame being collected; an
IDLE assembler ignores a broken character, and a stopped timer does not expire (notes/assumptions/2). -/
def Obligations.PartialFrameIsDiscarded : Prop :=
  ∀ s : State, running s = true →
    ∃ t u, exec .brokenCharacter s = .next t ∧ exec .interByteTimerExpiry s = .next u ∧
      SameBut [.cli] s t ∧ SameBut [.cli] s u ∧
      t.cli = (if s.cli.assembler = none then s.cli
               else { s.cli with assembler := none, interByte := none, truncated := true }) ∧
      u.cli = (if s.cli.assembler = none ∨ s.cli.interByte = none then s.cli
               else { s.cli with assembler := none, interByte := none, truncated := true })

/-- R13 and R15: the head frame leaves when its last byte has gone, and the next starts at once; with R12 and R14, how a
reply and a relay copy are placed. That the commands leave the state alone while their sender is idle is the model's guard
(notes/assumptions/2). -/
def Obligations.SendersAndTheirQueues : Prop :=
  (∀ s : State, running s = true →
    ∃ t u, exec .replyFrameSent s = .next t ∧ exec .relayFrameSent s = .next u ∧
      SameBut [.cli] s t ∧ SameBut [.cli] s u ∧
      t.cli = (if s.cli.replySending then
                 { s.cli with replies := s.cli.replies.tail, replySending := !s.cli.replies.tail.isEmpty }
               else s.cli) ∧
      u.cli = (if s.cli.relaySending then
                 { s.cli with relays := s.cli.relays.tail, relaySending := !s.cli.relays.tail.isEmpty }
               else s.cli)) ∧
    (∀ (c : Cli) (f : Frame),
      replyOffer c f = (if c.replies.length < 4 then { c with replies := c.replies ++ [f], replySending := true }
                        else { c with replyDropped := true })) ∧
    (∀ (c : Cli) (f : Frame), c.relays.length < 4 →
      relayPlace c f = { c with relays := c.relays ++ [f], relaySending := true }) ∧
    (∀ (c : Cli) (f g₁ g₂ g₃ g₄ : Frame), c.relays = [g₁, g₂, g₃, g₄] →
      relayPlace c f = { c with relays := if c.relaySending then [g₁, g₃, g₄, f] else [g₂, g₃, g₄, f],
                                relaySending := true, relayDisplaced := true })

/-- R1, R6, R9 and R10: a good frame sent whole, character by character, joins the inbound queue as it was sent, whatever
the assembler held before; and with R2 and R3, a frame that the part makes is good and its fields read back. R1 and R8: the
eleven levels of a character, by which it is heard, and those of a frame; which of its two levels a line takes for a set
bit is the model's (notes/assumptions/18). -/
def Obligations.FrameSentWholeIsReceived : Prop :=
  (∀ (s : State) (f : Frame), running s = true → goodFrame f → s.cli.inbound.length < 8 →
     ∃ t, execAll (frameArrival f) s = .next t ∧ SameBut [.cli] s t ∧
       t.cli = { s.cli with assembler := none, interByte := none, inbound := s.cli.inbound ++ [f],
                            hold := s.cli.hold || s.cli.inbound.length = 5,
                            truncated := s.cli.truncated || s.cli.assembler.isSome }) ∧
  (∀ (kind address : Nat) (payload : List Byte), kind < 16 → address < 4096 → payload.length ≤ 16 →
     goodFrame (makeFrame kind address payload) ∧ frameKind (makeFrame kind address payload) = kind ∧
       frameAddress (makeFrame kind address payload) = address ∧
       framePayload (makeFrame kind address payload) = payload) ∧
  (∀ (marker : Bool) (b : Byte),
     let levels := characterLevels marker b
     levels.length = 11 ∧ levels[0]? = some (!stopLevel) ∧ (∀ n, n < 8 → levels[n + 1]? = some (b.getLsbD n)) ∧
       levels[9]? = some marker ∧ levels[10]? = some stopLevel ∧
       characterHeard levels = some (.characterReceived b marker) ∧
       characterHeard (levels.take 10 ++ [!stopLevel]) = some .brokenCharacter) ∧
  (∀ f : Frame, (frameLevels f).length = 11 * f.length ∧
     ∀ n, n < f.length → ((frameLevels f).drop (11 * n)).take 11 = characterLevels (n = 0) (f.getD n 0))

/-- Every step keeps the link's queues to their sizes, its senders to their queues, CMD_HOLD to its thresholds, and only
good frames waiting (R9 to R15). -/
def Obligations.LinkStaysSound : Prop :=
  ∀ s t : State, step s = .next t → (LinkSafe s → LinkSafe t) ∧ (FramesSafe s → FramesSafe t)

/-! ### The dispatch -/

/-- R20 and R21: a frame that is discarded leaves the inbound queue, is copied to the relay queue if a RELAY entry matches
it, and does nothing else; a reply frame is always discarded. That a malformed HALT or RESET is taken by either of its two
rows is the model's reading (notes/assumptions/3). -/
def Obligations.DiscardedFrameIsOnlyRelayed : Prop :=
  (∀ (i : Instr) (row : Frame → Bool) (s : State) (f : Frame) (rest : List Frame),
    frameRow i = some row → HeadFrame s f rest → row f = true → handedVia s f = none → s.fnu.waiting = [] →
    ∃ t, exec i s = .next t ∧ SameBut [.cli] s t ∧
      (relayWanted s f → t.cli = relayPlace (inboundTake s.cli rest) f) ∧
      (¬relayWanted s f → t.cli = inboundTake s.cli rest)) ∧
  (∀ (s : State) (f : Frame) (rest : List Frame), HeadFrame s f rest → 13 ≤ frameKind f →
    ∃ t, exec .replyFrameTaken s = .next t ∧ SameBut [.cli] s t ∧
      (relayWanted s f → t.cli = relayPlace (inboundTake s.cli rest) f) ∧
      (¬relayWanted s f → t.cli = inboundTake s.cli rest)) ∧
  (∀ (c : Cli) (rest : List Frame),
    inboundTake c rest = { c with inbound := rest, hold := if rest.length = 3 then false else c.hold })

/-- R4 and Table 1-1: when a frame of Kind 0 to 12 is well formed. R22 to R24: which frames are handed on, and through
what. -/
def Obligations.FramesAreHandedOnByTheFirstMatch : Prop :=
  (∀ f : Frame,
    let n := frameLength f
    let p := framePayload f
    frameWellFormed f = true ↔
      (frameKind f = 0 ∧ n = 2 ∧ byteAt p 0 ≤ 1) ∨ (frameKind f = 1 ∧ n = 1 ∧ byteAt p 0 ≤ 1) ∨
        (frameKind f = 2 ∧ n = 2 ∧ byteAt p 0 ≤ 7) ∨ (frameKind f = 3 ∧ n = 0) ∨ (frameKind f = 4 ∧ n = 1) ∨
        (frameKind f = 5 ∧ 1 ≤ n ∧ n ≤ 16) ∨ (frameKind f = 6 ∧ n = 2) ∨
        (frameKind f = 7 ∧ n = 4 ∧ 1 ≤ byteAt p 3 ∧ byteAt p 3 ≤ 13) ∨ (frameKind f = 8 ∧ n = 0) ∨
        (frameKind f = 9 ∧ n = 0) ∨ (frameKind f = 10 ∧ n = 2) ∨ (frameKind f = 11 ∧ 4 ≤ n ∧ n ≤ 16) ∨
        (frameKind f = 12 ∧ n = 3 ∧ byteAt p 2 ≤ 1)) ∧
  (∀ (s : State) (f : Frame),
     (13 ≤ frameKind f ∨ frameWellFormed f = false → handedVia s f = none) ∧
     (frameKind f ≤ 12 → frameWellFormed f = true → frameAddress f = 0 →
       handedVia s f = if frameKind f = 1 ∨ frameKind f = 0 ∧ byteAt (framePayload f) 1 = 0 then some .broadcast
                       else none) ∧
     (frameKind f ≤ 12 → frameWellFormed f = true → frameAddress f ≠ 0 →
       handedVia s f ≠ some .broadcast ∧
       ∀ k, handedVia s f = some (.entry k) ↔
         k < 8 ∧ entryAgrees (s.entry k) f ∧ (∀ j, j < k → ¬entryAgrees (s.entry j) f) ∧
           ((s.entry k).kind = .primary ∨ (s.entry k).kind = .consist ∧ frameKind f ≤ 2 ∨
             (s.entry k).kind = .group ∧ (frameKind f = 1 ∨ frameKind f = 2))))

/-! ### The traction owner and the commands to TRC -/

/-- R25, R28 and R31: a DRIVE or HALT from the traction owner, or by broadcast, restarts the command-loss timer and
clears SIGNAL_LOST; from any other entry it does neither, and there a DRIVE or HALT NORMAL is ignored altogether. The
rows of HALT are as the model tells them apart (notes/assumptions/3). -/
def Obligations.OwnersFramesAreHeardOthersDoNotDrive : Prop :=
  (∀ (i : Instr) (row : Frame → Bool) (s : State) (f : Frame) (rest : List Frame) (via : Via),
     i = .drive ∨ i = .haltNormal ∨ i = .haltEmergency → frameRow i = some row → HandedOn s f rest via →
     row f = true →
     ∃ t, exec i s = .next t ∧
       t.dsp = if via = .broadcast ∨ via = .entry (ownerEntry s) then
                 { lossTimer := if s.lossTime = 0 then none else some (s.lossTime * 100000), signalLost := false }
               else s.dsp) ∧
  (∀ (s : State) (f : Frame) (rest : List Frame) (k : Nat), HandedOn s f rest (.entry k) → k ≠ ownerEntry s →
     (frameKind f = 0 → exec .drive s = .next (fnuSettle (frameTaken s f rest))) ∧
     (frameKind f = 1 → byteAt (framePayload f) 0 = 0 →
       exec .haltNormal s = .next (fnuSettle (frameTaken s f rest))))

/-- R28 to R32: nothing but an owner's DRIVE or HALT, the timer's own expiry, a commit or a reset changes the command-loss
timer or SIGNAL_LOST; R56 and R69: no command but FUNC and the resets changes a function. -/
def Obligations.OnlyTheirCommandsReachTheTimerAndTheFunctions : Prop :=
  (∀ (i : Instr) (s t : State), exec i s = .next t → t.dsp ≠ s.dsp →
     i = .drive ∨ i = .haltNormal ∨ i = .haltEmergency ∨ i = .commandLossTimerExpiry ∨ i = .cfgCommit ∨
       i = .resetNormal ∨ i = .resetFactory ∨ i = .resetRelease ∨ (∃ w, i = .powerOnReset w) ∨
       ∃ w, i = .brownoutReset w) ∧
  (∀ (i : Instr) (s t : State), exec i s = .next t → t.fnu.functions ≠ s.fnu.functions →
     i = .func ∨ i = .resetNormal ∨ i = .resetFactory ∨ i = .resetRelease ∨ (∃ w, i = .powerOnReset w) ∨
       ∃ w, i = .brownoutReset w)

/-- R26, R86, R76 and R94: a DRIVE from the owner while armed. `s0` is the part with the frame taken and the owner heard. That
the stall test reads REG_ON as it is in force is the model's choice (notes/assumptions/23). -/
def Obligations.DriveWhileArmed : Prop :=
  ∀ (s : State) (f : Frame) (rest : List Frame) (via : Via), HandedOn s f rest via → frameKind f = 0 →
    fromOwner s via = true → s.trc.armed = true →
    let s0 := ownerHeard (frameTaken s f rest)
    ∃ u, exec .drive s = .next (fnuSettle u) ∧ TractionEvent s0 u ∧
      u.trc.step = min 240 (byteAt (framePayload f) 1) ∧
      u.trc.stated = handedDirection s (dirOfByte (byteAt (framePayload f) 0)) ∧
      u.trc.target = (if s0.trc.shunt then tableTarget s.tbs.active.speed u.trc.step / 2
                      else tableTarget s.tbs.active.speed u.trc.step) ∧
      u.trc.state = (match s0.trc.state with
        | .idle => if 0 < u.trc.target then .running else .idle
        | .running =>
          if 0 < s0.trc.ramp ∧ u.trc.stated ≠ s0.trc.drive then .reversing
          else if s0.trc.ramp = 0 ∧ u.trc.target = 0 then .idle else .running
        | .reversing => if u.trc.stated = s0.trc.drive then .running else .reversing
        | other => other) ∧
      u.trc.drive = (if s0.trc.ramp = 0 then u.trc.stated else s0.trc.drive) ∧
      u.trc = { s0.trc with step := u.trc.step, stated := u.trc.stated, target := u.trc.target, state := u.trc.state,
                            drive := u.trc.drive, bemfTimer := u.trc.bemfTimer, stallTimer := u.trc.stallTimer,
                            outstanding := u.trc.outstanding, published := u.trc.published } ∧
      (u.trc.state = s0.trc.state →
        u.trc.bemfTimer = s0.trc.bemfTimer ∧ u.trc.stallTimer = s0.trc.stallTimer) ∧
      (u.trc.state ≠ s0.trc.state → StallTested s0 u s0.trc.stallTimer)

/-- R87: a DRIVE from the owner while disarmed is ignored by TRC unless its step is 0, which re-arms. -/
def Obligations.DriveWhileDisarmed : Prop :=
  ∀ (s : State) (f : Frame) (rest : List Frame) (via : Via), HandedOn s f rest via → frameKind f = 0 →
    fromOwner s via = true → s.trc.armed = false →
    let s0 := ownerHeard (frameTaken s f rest)
    (byteAt (framePayload f) 1 ≠ 0 → exec .drive s = .next (fnuSettle s0)) ∧
    (byteAt (framePayload f) 1 = 0 →
      ∃ u, exec .drive s = .next (fnuSettle u) ∧ TractionEvent s0 u ∧
        u.trc.stated = handedDirection s (dirOfByte (byteAt (framePayload f) 0)) ∧
        u.trc.drive = (if s0.trc.ramp = 0 then u.trc.stated else s0.trc.drive) ∧
        (s0.trc.state = .idle ∨ s0.trc.state = .emergency ∨ s0.trc.state = .lockout ∨ s0.trc.state = .stalled →
          u.trc.state = .idle) ∧
        (s0.trc.state = .failsafe → 0 < s0.trc.ramp →
          u.trc.state = if u.trc.stated = s0.trc.drive then .running else .reversing) ∧
        (s0.trc.state = .tripped ∨ s0.trc.state = .suspended → u.trc.state = s0.trc.state) ∧
        u.trc = { s0.trc with armed := true, step := 0, target := 0,
                              integral := if s0.trc.state = .failsafe then 0 else s0.trc.integral,
                              stated := u.trc.stated, state := u.trc.state, drive := u.trc.drive,
                              bemfTimer := u.trc.bemfTimer, stallTimer := u.trc.stallTimer,
                              outstanding := u.trc.outstanding, published := u.trc.published })

/-- R25, R86 and R87: a HALT NORMAL from the owner is a step of 0 in the current stated direction. -/
def Obligations.HaltNormalIsStepZero : Prop :=
  ∀ (s : State) (f : Frame) (rest : List Frame) (via : Via), HandedOn s f rest via → frameKind f = 1 →
    byteAt (framePayload f) 0 = 0 → fromOwner s via = true →
    let s0 := ownerHeard (frameTaken s f rest)
    ∃ u, exec .haltNormal s = .next (fnuSettle u) ∧ TractionEvent s0 u ∧
      u.trc.armed = true ∧ u.trc.step = 0 ∧ u.trc.target = 0 ∧ u.trc.stated = s0.trc.stated ∧
      u.trc.ramp = s0.trc.ramp ∧
      u.trc.drive = (if s0.trc.ramp = 0 then s0.trc.stated else s0.trc.drive) ∧
      (s0.trc.state = .idle → u.trc.state = .idle) ∧
      (s0.trc.state = .running → s0.trc.ramp = 0 → u.trc.state = .idle) ∧
      (s0.trc.state = .running → 0 < s0.trc.ramp → s0.trc.stated = s0.trc.drive → u.trc.state = .running) ∧
      (s0.trc.state = .reversing → 0 < s0.trc.ramp → s0.trc.stated ≠ s0.trc.drive → s0.trc.armed = true →
        u.trc.state = .reversing) ∧
      (s0.trc.state = .emergency ∨ s0.trc.state = .lockout ∨ s0.trc.state = .stalled → s0.trc.armed = false →
        u.trc.state = .idle) ∧
      (s0.trc.state = .failsafe → 0 < s0.trc.ramp → s0.trc.armed = false →
        u.trc.state = if s0.trc.stated = s0.trc.drive then .running else .reversing) ∧
      (s0.trc.state = .tripped ∨ s0.trc.state = .suspended → u.trc.state = s0.trc.state) ∧
      u.trc.duty = s0.trc.duty ∧ u.trc.speed = s0.trc.speed ∧ u.trc.load = s0.trc.load ∧
      u.trc.loaded = s0.trc.loaded ∧ u.trc.dcap = s0.trc.dcap ∧ u.trc.shunt = s0.trc.shunt ∧
      u.trc.momentumOff = s0.trc.momentumOff

/-- R88 and R25: an emergency halt from any entry stops the motor without a ramp and disarms. -/
def Obligations.EmergencyHalt : Prop :=
  ∀ (s : State) (f : Frame) (rest : List Frame) (via : Via), HandedOn s f rest via → frameKind f = 1 →
    byteAt (framePayload f) 0 = 1 →
    let s0 := if fromOwner s via = true then ownerHeard (frameTaken s f rest) else frameTaken s f rest
    (s0.trc.state = .emergency ∨ s0.trc.state = .lockout ∨ s0.trc.state = .stalled →
      exec .haltEmergency s = .next (fnuSettle s0)) ∧
    (s0.trc.state = .suspended →
      ∃ u, exec .haltEmergency s = .next (fnuSettle u) ∧ TractionEvent s0 u ∧ u.trc.state = .suspended ∧
        u.trc.armed = false ∧ u.trc.step = 0 ∧ u.trc.target = 0 ∧ u.trc.ramp = s0.trc.ramp ∧
        u.trc.stated = s0.trc.stated) ∧
    (s0.trc.state ≠ .emergency → s0.trc.state ≠ .lockout → s0.trc.state ≠ .stalled → s0.trc.state ≠ .suspended →
      ∃ u, exec .haltEmergency s = .next (fnuSettle u) ∧ TractionEvent s0 u ∧
        u.trc = { s0.trc with state := .emergency, armed := false, step := 0, target := 0, ramp := 0, duty := 0,
                              integral := 0, speed := 0, load := 0, loaded := false, bemfTimer := none,
                              stallTimer := none, drive := s0.trc.stated, outstanding := u.trc.outstanding,
                              published := u.trc.published } ∧
        (s0.mbr.mode ≠ .emergencyStop → s0.mbr.bridge ≠ .brake →
          u.mbr.bridge = (if s.emergBrakes then .brake else .off) ∧ u.mbr.retryTimer =
            if s0.mbr.bridge = .tripped then none else s0.mbr.retryTimer))

/-- R29 and R89: the command-loss timer expires. `s1` is the part once DSP has acted and published C4. That TRC acts
before FNU takes C4 is the model's (notes/assumptions/6), and so is that a FAILSAFE entered with V 0 is over at once
(notes/assumptions/9). -/
def Obligations.CommandLossExpires : Prop :=
  ∀ s : State, running s = true → s.dsp.lossTimer ≠ none →
    let s1 := (if s.dsp.signalLost then s else publish s (.signalLost true)).setDsp
      { lossTimer := none, signalLost := true }
    (s.lossStops = false → exec .commandLossTimerExpiry s = .next (fnuSettle s1)) ∧
    (s.lossStops = true →
      (s.trc.state = .failsafe ∨ s.trc.state = .emergency ∨ s.trc.state = .lockout ∨ s.trc.state = .stalled →
        exec .commandLossTimerExpiry s = .next (fnuSettle s1)) ∧
      (s.trc.state = .idle ∨ s.trc.state = .tripped ∨ s.trc.state = .suspended →
        ∃ u, exec .commandLossTimerExpiry s = .next (fnuSettle u) ∧ TractionEvent s1 u ∧
          u.trc.state = s.trc.state ∧ u.trc.armed = false ∧ u.trc.step = 0 ∧ u.trc.target = 0 ∧
          u.trc.ramp = s.trc.ramp ∧ u.trc.duty = s.trc.duty ∧ u.trc.integral = s.trc.integral) ∧
      (s.trc.state = .running ∨ s.trc.state = .reversing → 0 < s.trc.ramp →
        ∃ u, exec .commandLossTimerExpiry s = .next (fnuSettle u) ∧ TractionEvent s1 u ∧
          u.trc = { s.trc with state := .failsafe, armed := false, step := 0, target := 0,
                               duty := min (s.trc.ramp / 64) (min 1023 s.trc.dcap), integral := 0, load := 0,
                               loaded := false, bemfTimer := none, stallTimer := none,
                               outstanding := u.trc.outstanding, published := u.trc.published }) ∧
      (s.trc.state = .running ∨ s.trc.state = .reversing → s.trc.ramp = 0 →
        ∃ u, exec .commandLossTimerExpiry s = .next (fnuSettle u) ∧ TractionEvent s1 u ∧
          u.trc = { s.trc with state := .idle, armed := false, step := 0, target := 0, duty := 0, integral := 0,
                               speed := 0, load := 0, loaded := false, bemfTimer := none, stallTimer := none,
                               drive := s.trc.stated, outstanding := u.trc.outstanding,
                               published := u.trc.published }))

/-! ### Status -/

/-- R34, R16 and R36: a STATUS_REQ is answered with the record as it stands, and the flags reported are cleared if the reply
joins the queue; if it does not, only REPLY_DROPPED is set. -/
def Obligations.StatusIsAnswered : Prop :=
  ∀ (s : State) (f : Frame) (rest : List Frame) (via : Via), HandedOn s f rest via → frameKind f = 3 →
    let s0 := frameTaken s f rest
    ∃ t, exec .statusReq s = .next t ∧
      (s0.cli.replies.length < 4 →
        t.cli = { s0.cli with replies := s0.cli.replies ++ [makeFrame 14 s.primaryAddress (statusRecord s0)],
                              replySending := true, truncated := false, frameDropped := false,
                              replyDropped := false, relayDisplaced := false, checkErrors := 0 } ∧
        t.snd = { s.snd with underrun := false } ∧ t.smk = { s.smk with dry := false } ∧
        t.mbr = { s.mbr with lockoutShort := false } ∧ SameBut [.cli, .snd, .smk, .mbr] s t) ∧
      (4 ≤ s0.cli.replies.length → t.cli = { s0.cli with replyDropped := true } ∧ SameBut [.cli] s t)

/-- R35: the bytes of the status record. -/
def Obligations.StatusRecordLayout : Prop :=
  ∀ s : State, s.ppm.shed ≤ 3 → s.trc.step ≤ 240 → s.trc.ramp ≤ 65472 → s.mbr.applied ≤ 1023 → s.trc.speed ≤ 1023 →
    s.trc.load ≤ 255 → s.cli.checkErrors ≤ 255 → (∀ c ∈ s.msq.results, c ≤ 4095) →
    let r := statusRecord s
    r.length = 16 ∧
      fieldAt r 0 4 4 = (match s.ppm.power with | .init => 0 | .normal => 1 | .coast => 2 | .hold => 3) ∧
      fieldAt r 0 0 4 = (match s.ppm.active with | .noSource => 0 | .track => 1 | .battery => 2 | .buffer => 3) ∧
      fieldAt r 1 4 4 = s.ppm.shed ∧
      fieldAt r 1 0 4 = (match s.trc.state with
        | .idle => 0 | .running => 1 | .reversing => 2 | .failsafe => 3 | .emergency => 4 | .tripped => 5
        | .lockout => 6 | .stalled => 7 | .suspended => 8) ∧
      bitAt r 2 7 = s.trc.armed ∧ bitAt r 2 6 = decide (s.trc.drive = .rev) ∧
      bitAt r 2 5 = decide (s.cam.source = .sensor) ∧ fieldAt r 2 3 2 = 0 ∧
      fieldAt r 2 0 3 = (match s.smk.state with
        | .off => 0 | .heating => 1 | .ready => 2 | .suspended => 3 | .fault => 4) ∧
      byteAt r 3 = s.trc.step ∧ word16At r 4 = s.trc.ramp / 64 ∧ word16At r 6 = s.mbr.applied ∧
      word16At r 8 = s.trc.speed ∧ byteAt r 10 = s.trc.load ∧
      byteAt r 11 = (match s.ppm.cause with | .powerOn => 0 | .brownout => 1 | .command => 2 | .factory => 3) ∧
      bitAt r 12 0 = s.cli.truncated ∧ bitAt r 12 1 = s.cli.frameDropped ∧ bitAt r 12 2 = s.cli.replyDropped ∧
      bitAt r 12 3 = s.cli.relayDisplaced ∧ fieldAt r 12 4 4 = 0 ∧
      bitAt r 13 0 = s.tbs.defaulted ∧ bitAt r 13 1 = s.snd.underrun ∧ bitAt r 13 2 = s.smk.dry ∧
      bitAt r 13 3 = s.mbr.lockoutShort ∧ fieldAt r 13 4 4 = 0 ∧
      byteAt r 14 = s.cli.checkErrors ∧ byteAt r 15 = s.msq.results.getD 7 0 / 16

/-! ### The tables -/

/-- R40, R41 and R44: CFG_OPEN, CFG_POINT and CFG_CLOSE. -/
def Obligations.OpenPointAndCloseFollowTheirTests : Prop :=
  (∀ (s : State) (f : Frame) (rest : List Frame) (via : Via), HandedOn s f rest via → frameKind f = 4 →
     let s0 := frameTaken s f rest
     let id := byteAt (framePayload f) 0
     (6 < id → exec .cfgOpen s = .next (offerReply s0 (resultFrame s.primaryAddress 4 .badTable 0))) ∧
     (id = 6 → exec .cfgOpen s = .next (offerReply s0 (resultFrame s.primaryAddress 4 .readOnly 0))) ∧
     ∀ t, tableOfId id = some t →
       (s.tbs.writing ≠ none → exec .cfgOpen s = .next (offerReply s0 (resultFrame s.primaryAddress 4 .busy 0))) ∧
       (s.tbs.writing = none →
         ∃ u, exec .cfgOpen s = .next (offerReply u (resultFrame s.primaryAddress 4 .accepted (tableSize t))) ∧
           SameBut [.tbs] s0 u ∧ u.tbs = { s.tbs with openTable := some t, pointer := 0, edit := u.tbs.edit } ∧
           ((tableGet s.tbs.active t).length = tableSize t → u.tbs.edit.take (tableSize t) = tableGet s.tbs.active t))) ∧
  (∀ (s : State) (f : Frame) (rest : List Frame) (via : Via), HandedOn s f rest via → frameKind f = 6 →
     let s0 := frameTaken s f rest
     let i := word16At (framePayload f) 0
     (s.tbs.openTable = none →
       exec .cfgPoint s = .next (offerReply s0 (resultFrame s.primaryAddress 6 .notOpen 0))) ∧
     ∀ t, s.tbs.openTable = some t →
       (tableSize t ≤ i → exec .cfgPoint s = .next (offerReply s0 (resultFrame s.primaryAddress 6 .range 0))) ∧
       (i < tableSize t →
         exec .cfgPoint s =
           .next (offerReply (s0.setTbs { s.tbs with pointer := i }) (resultFrame s.primaryAddress 6 .accepted i)))) ∧
  (∀ (s : State) (f : Frame) (rest : List Frame) (via : Via), HandedOn s f rest via → frameKind f = 9 →
     let s0 := frameTaken s f rest
     (s.tbs.openTable = none →
       exec .cfgClose s = .next (offerReply s0 (resultFrame s.primaryAddress 9 .notOpen 0))) ∧
     (s.tbs.openTable ≠ none →
       exec .cfgClose s =
         .next (offerReply (s0.setTbs { s.tbs with openTable := none, pointer := 0 })
           (resultFrame s.primaryAddress 9 .accepted 0))))

/-- R42 and R43: CFG_WRITE and CFG_READ. -/
def Obligations.WriteAndReadFollowTheirTests : Prop :=
  (∀ (s : State) (f : Frame) (rest : List Frame) (via : Via), HandedOn s f rest via → frameKind f = 5 →
     s.tbs.edit.length = 1024 →
     let s0 := frameTaken s f rest
     let data := framePayload f
     (s.tbs.openTable = none →
       exec .cfgWrite s = .next (offerReply s0 (resultFrame s.primaryAddress 5 .notOpen 0))) ∧
     ∀ t, s.tbs.openTable = some t →
       (tableSize t < s.tbs.pointer + data.length →
         exec .cfgWrite s = .next (offerReply s0 (resultFrame s.primaryAddress 5 .range 0))) ∧
       (s.tbs.pointer + data.length ≤ tableSize t →
         ∃ u, exec .cfgWrite s =
             .next (offerReply u (resultFrame s.primaryAddress 5 .accepted (s.tbs.pointer + data.length))) ∧
           SameBut [.tbs] s0 u ∧
           u.tbs = { s.tbs with pointer := s.tbs.pointer + data.length, edit := u.tbs.edit } ∧
           u.tbs.edit.length = 1024 ∧
           ∀ n, n < 1024 →
             u.tbs.edit.getD n 0 = if s.tbs.pointer ≤ n ∧ n < s.tbs.pointer + data.length then
                                     data.getD (n - s.tbs.pointer) 0 else s.tbs.edit.getD n 0)) ∧
  (∀ (s : State) (f : Frame) (rest : List Frame) (via : Via), HandedOn s f rest via → frameKind f = 7 →
     let s0 := frameTaken s f rest
     let id := byteAt (framePayload f) 0
     let i := word16At (framePayload f) 1
     let n := byteAt (framePayload f) 3
     (6 < id → exec .cfgRead s = .next (offerReply s0 (resultFrame s.primaryAddress 7 .badTable 0))) ∧
     (id = 6 → 4 < i + n → exec .cfgRead s = .next (offerReply s0 (resultFrame s.primaryAddress 7 .range 0))) ∧
     (id = 6 → i + n ≤ 4 →
       exec .cfgRead s = .next (offerReply s0 (dataFrame s.primaryAddress 6 i (slice [0x2E, 0x0C, 0x30, 1] i n)))) ∧
     ∀ t, tableOfId id = some t →
       (tableSize t < i + n →
         exec .cfgRead s = .next (offerReply s0 (resultFrame s.primaryAddress 7 .range 0))) ∧
       (i + n ≤ tableSize t → s.tbs.openTable = some t →
         exec .cfgRead s = .next (offerReply s0 (dataFrame s.primaryAddress id i (slice s.tbs.edit i n)))) ∧
       (i + n ≤ tableSize t → s.tbs.openTable ≠ some t →
         exec .cfgRead s =
           .next (offerReply s0 (dataFrame s.primaryAddress id i (slice (tableGet s.tbs.active t) i n)))))

/-- R45: CFG_COMMIT is refused in three cases, and otherwise installs the table, closes it and begins the nonvolatile
write. R182, R72, R67, R164 and R180: what the installation of SETTINGS, SPEED, MAP, CUES and LAMPS does at the owner, from
`b`, the part with the table in force. What of the image changes at the commit is the model's reading
(notes/assumptions/11), and so are a voltage at the level counting as present (notes/assumptions/20) and what becomes of a
running soft timer (notes/assumptions/10), what a voice that falls free holds (notes/assumptions/15), and that SND reads
MOVING as TRC has published it (notes/assumptions/17). -/
def Obligations.CommitFollowsItsTests : Prop :=
  ∀ (s : State) (f : Frame) (rest : List Frame) (via : Via), HandedOn s f rest via → frameKind f = 8 →
    let s0 := frameTaken s f rest
    (s.tbs.writing ≠ none →
      exec .cfgCommit s = .next (fnuSettle (offerReply s0 (resultFrame s.primaryAddress 8 .busy 0)))) ∧
    (s.tbs.writing = none → s.tbs.openTable = none →
      exec .cfgCommit s = .next (fnuSettle (offerReply s0 (resultFrame s.primaryAddress 8 .notOpen 0)))) ∧
    ∀ t, s.tbs.writing = none → s.tbs.openTable = some t →
      let edited := s.tbs.edit.take (tableSize t)
      let content := if t = .settings then settingsPutRight edited else edited
      (∀ k, commitOffence t edited = some k →
        exec .cfgCommit s = .next (fnuSettle (offerReply s0 (resultFrame s.primaryAddress 8 .invalid k)))) ∧
      (commitOffence t edited = none →
        ∃ u, exec .cfgCommit s =
            .next (fnuSettle (offerReply u (resultFrame s.primaryAddress 8 .accepted (sumBytes content % 65536)))) ∧
          u.tbs = { s.tbs with active := tablePut s.tbs.active t content, openTable := none, pointer := 0,
                               defaulted := false, writing := some t } ∧
          u.store = tablePut s.store t { tableGet s.store t with mark := true } ∧
          SameBut (match t with
            | .settings => [.tbs, .store, .fnu, .trc, .mbr, .msq, .snd, .smk, .lmp, .ppm]
            | .address => [.tbs, .store, .dsp, .fnu, .trc, .mbr, .msq]
            | .speed => [.tbs, .store, .fnu, .trc, .mbr, .msq]
            | .map => [.tbs, .store, .fnu, .trc, .mbr, .msq, .snd, .smk, .lmp]
            | .cues => [.tbs, .store, .snd]
            | .lamps => [.tbs, .store, .lmp]) s0 u ∧
          let b := (s0.setTbs u.tbs).setStore u.store
          let volts (x : Supply) := (supplyOf s.ppm x).voltage
          let was (x : Supply) := (supplyOf s.ppm x).present
          let reads (x : Supply) : Bool :=
            (match x with | .track => 16 * b.trackMin | .battery => 16 * b.battMin) ≤ (volts x).toNat
          let selected := if s.trc.published.moving then b.bgRunCue else b.bgIdleCue
          let oldEntries := mapEntries s.tbs.active.map
          let entries := mapEntries content
          let bright (n : Nat) (dim : Bool) : Nat :=
            if dim then (b.lampRecord n).brightness / 2 else (b.lampRecord n).brightness
          (t = .settings →
            ((∀ x, reads x = was x) → u = b) ∧
            (∀ x, (supplyOf u.ppm x).voltage = volts x ∧ (supplyOf u.ppm x).present = reads x ∧
              (was x = true → reads x = false →
                (supplyOf u.ppm x).qualification = .absent ∧ (supplyOf u.ppm x).timer = none) ∧
              (was x = false → reads x = true → (supplyOf s.ppm x).qualification = .absent →
                (supplyOf u.ppm x).qualification = .qualifying ∧
                  (supplyOf u.ppm x).timer = some (match x with | .track => 50000 | .battery => 20000))) ∧
            (∀ x, reads (otherSupply x) = was (otherSupply x) →
              (was x = true → reads x = false → exec (.presenceLost ⟨x, volts x⟩) b = .next (fnuSettle u)) ∧
              (was x = false → reads x = true → exec (.presenceGained ⟨x, volts x⟩) b = .next (fnuSettle u)))) ∧
          (t = .speed →
            TractionEvent b u ∧
              u.trc.target = (if s.trc.shunt then tableTarget content s.trc.step / 2
                              else tableTarget content s.trc.step) ∧
              u.trc.state = (match s.trc.state with
                | .idle => if 0 < u.trc.target ∧ s.trc.armed = true then .running else .idle
                | .running => if s.trc.ramp = 0 ∧ u.trc.target = 0 then .idle else .running
                | other => other) ∧
              u.trc = { s.trc with target := u.trc.target, state := u.trc.state,
                                   drive := if s.trc.ramp = 0 then s.trc.stated else s.trc.drive,
                                   bemfTimer := u.trc.bemfTimer, stallTimer := u.trc.stallTimer,
                                   outstanding := u.trc.outstanding, published := u.trc.published } ∧
              (u.trc.state = s.trc.state →
                u.trc.bemfTimer = s.trc.bemfTimer ∧ u.trc.stallTimer = s.trc.stallTimer)) ∧
          (t = .map → MapSafe s →
            u.fnu.activity = entries.map (entryActive s.fnu) ∧
              Deliveries b u (outputsFor (entries.filter (entryActive s.fnu)))
                ((oldEntries.zip entries).flatMap (fun x =>
                  if (x.1.used = false ∧ x.2.used = false) ∨ x.1 = x.2 then []
                  else
                    (match x.1.action with
                      | some (.cue c) => if entryActive s.fnu x.1 then [(c, false)] else []
                      | _ => []) ++
                    (match x.2.action with
                      | some (.cue c) => if entryActive s.fnu x.2 then [(c, true)] else []
                      | _ => [])))) ∧
          (t = .cues →
            u.snd = { s.snd with
              chuff := voiceFree, stack := [], pool := s.snd.pool.map (fun _ => voiceFree)
              background := if s.snd.on = false ∨ (b.cueRecord selected).length = 0 then voiceFree
                            else { cue := some selected, position := 0, held := true,
                                   volume := (b.cueRecord selected).volume, order := 0 } }) ∧
          (t = .lamps → s.lmp.outputs.length = 8 →
            u.lmp.power = s.lmp.power ∧ u.lmp.flicker = s.lmp.flicker ∧
              (s.lmp.power = .init ∨ s.lmp.power = .hold → u.lmp = s.lmp) ∧
              (s.lmp.power = .normal ∨ s.lmp.power = .coast → ∀ n, n < 8 →
                let o := s.lmp.outputs.getD n lampReset
                let aim := if o.on then bright n o.dim else 0
                u.lmp.outputs.getD n lampReset =
                  { o with
                    shown := match o.effect with
                      | .steady => aim
                      | .flicker => aim * (32 + s.lmp.flicker.toNat % 32) / 64
                      | .blink => if o.lit then aim else 0
                      | .soft => o.soft
                    softTimer :=
                      if o.effect = .soft then
                        (if o.soft = aim then none
                         else some (o.softTimer.getD (1000 * (b.lampRecord n).softStep)))
                      else o.softTimer })))

/-- R32, R28 and R99: what the installation of an address table does, by the owner before and after. -/
def Obligations.AddressTableInstalls : Prop :=
  ∀ (s : State) (f : Frame) (rest : List Frame) (via : Via) (old new : AddressEntry), HandedOn s f rest via →
    frameKind f = 8 → s.tbs.writing = none → s.tbs.openTable = some .address →
    commitOffence .address (s.tbs.edit.take 48) = none → old = s.entry (ownerEntry s) →
    new = addressEntry (s.tbs.edit.take 48)
      (((List.range 8).find? (fun k => isConsist (addressEntry (s.tbs.edit.take 48) k))).getD 0) →
    let s0 := frameTaken s f rest
    ∃ u, exec .cfgCommit s =
        .next (fnuSettle (offerReply u
          (resultFrame s.primaryAddress 8 .accepted (sumBytes (s.tbs.edit.take 48) % 65536)))) ∧
      (isConsist old ≠ isConsist new ∨ old.address ≠ new.address →
        u.dsp = { s.dsp with lossTimer := if s.lossTime = 0 then none else some (s.lossTime * 100000) } ∧
          SameBut [.tbs, .store, .dsp] s0 u) ∧
      (isConsist old = isConsist new → old.address = new.address →
        (isConsist new = false ∨ old.reversed = new.reversed) → SameBut [.tbs, .store] s0 u) ∧
      (isConsist old = true → isConsist new = true → old.address = new.address → old.reversed ≠ new.reversed →
        s.trc.step ≤ 240 →
        u.dsp = s.dsp ∧ u.trc.stated = dirInverted s.trc.stated ∧ u.trc.step = s.trc.step ∧
          u.trc.armed = s.trc.armed ∧ u.trc.ramp = s.trc.ramp ∧
          u.trc.drive = (if s.trc.ramp = 0 then dirInverted s.trc.stated else s.trc.drive) ∧
          (s.trc.armed = true → s.trc.state = .running → 0 < s.trc.ramp → s.trc.stated = s.trc.drive →
            u.trc.state = .reversing) ∧
          (s.trc.armed = false → u.trc.state = s.trc.state))

/-- R46: a commit of SETTINGS puts any content right, in three steps, and leaves alone what is right already. -/
def Obligations.SettingsArePutRight : Prop :=
  ∀ b : List Byte, b.length = 64 →
    let c := settingsPutRight b
    let clamped (r : SettingRow) : Nat :=
      if settingValue b r < r.lowest then r.lowest else if r.highest < settingValue b r then r.highest
      else settingValue b r
    c.length = 64 ∧ (∀ r ∈ settingRows, r.offset ≠ 10 → r.offset ≠ 41 → settingValue c r = clamped r) ∧
      (∀ r ∈ settingRows, r.offset = 10 →
        settingValue c r = if clamped r < byteAt c 9 then clamped r else byteAt c 9 - 1) ∧
      (∀ r ∈ settingRows, r.offset = 41 →
        settingValue c r = if word16At c 35 < clamped r then clamped r else word16At c 35 + 1) ∧
      (∀ n, 61 ≤ n → byteAt c n = 0) ∧ commitOffence .settings b = none ∧ settingsValid c = true ∧
      (settingsValid b = true → c = b) ∧
      (settingsValid b = true ↔
        (∀ r ∈ settingRows, r.lowest ≤ settingValue b r ∧ settingValue b r ≤ r.highest) ∧
          (∀ n, 61 ≤ n → n < 64 → byteAt b n = 0) ∧ byteAt b 10 < byteAt b 9 ∧ word16At b 35 < word16At b 41)

/-- R52: the nonvolatile write completes with an image of the active copy, its check word and the mark clear; the
write state is IDLE again. When the bytes are written is the model's reading (notes/assumptions/11). -/
def Obligations.NonvolatileWriteCompletes : Prop :=
  ∀ (s : State) (t : TableId), running s = true → s.tbs.writing = some t →
    ∃ u, exec .nvWriteComplete s = .next u ∧ SameBut [.tbs, .store] s u ∧
      u.tbs = { s.tbs with writing := none } ∧
      u.store = tablePut s.store t { bytes := tableGet s.tbs.active t,
                                     check := sumBytes (tableGet s.tbs.active t) % 65536, mark := false } ∧
      (contentValid t (tableGet s.tbs.active t) = true → imagePasses t (tableGet u.store t) = true)

/-- R38, R42 and R52: in every step the active copies stay valid and of their sizes, the stored images keep their sizes and
the mark of the one being written, and the editing state stays sound, with nothing being written in reset. -/
def Obligations.TablesStaySound : Prop :=
  ∀ s t : State, ActiveSafe s → StoreSafe s → EditSafe s → step s = .next t →
    ActiveSafe t ∧ StoreSafe t ∧ EditSafe t

/-! ### The function unit -/

/-- R27 and R56: FUNC sets the functions of its group that lie in the window of the accepting entry, and no others. -/
def Obligations.FuncSetsTheWindow : Prop :=
  ∀ (s : State) (f : Frame) (rest : List Frame) (k : Nat), HandedOn s f rest (.entry k) → frameKind f = 2 →
    ∃ t, exec .func s = .next t ∧ SameBut [.cli, .fnu, .trc, .mbr, .msq, .snd, .smk, .lmp] s t ∧
      t.cli = (frameTaken s f rest).cli ∧
      ∀ n, n < 64 →
        t.fnu.functions.getLsbD n =
          if n / 8 = byteAt (framePayload f) 0 ∧ (s.entry k).low ≤ n ∧ n ≤ (s.entry k).high then
            (byteAt (framePayload f) 1).testBit (n % 8)
          else s.fnu.functions.getLsbD n

/-- R57, R58 and R60: FNU takes the publications that wait one by one, oldest first; it evaluates only if a copy has
changed; and in doing so it reaches no block but its four targets and what they tell. R60: when an entry is active. R61 and
R62: what an evaluation delivers, from kept activities that gave the outputs last delivered. R63 to R65: the outputs that a
set of active entries gives. R65 and R72: a delivery of shunt has TRC work T out anew, halved under shunt, with IDLE and
RUNNING following it. R64 and R152: what a delivery of mute does to the engine. The turns within one command are the
model's (notes/assumptions/6), and so is what the voices that a mute stops hold (notes/assumptions/15). That SND reads MOVING as published (notes/assumptions/17) and the stall test
REG_ON as it is in force (notes/assumptions/23) are the model's too. -/
def Obligations.FnuTakesPublicationsAndWorksOutItsOutputs : Prop :=
  ((∀ s : State, s.fnu.waiting = [] → fnuSettle s = s) ∧
   (∀ s : State, SameBut [.fnu, .trc, .mbr, .msq, .snd, .smk, .lmp] s (fnuSettle s)) ∧
   (∀ (s : State) (n : Nat) (p : Publication) (rest : List Publication), s.fnu.waiting = p :: rest →
     let f := copiesAfter { s.fnu with waiting := rest } p
     fnuTake (n + 1) s =
       if f.conditions = s.fnu.conditions ∧ f.drive = s.fnu.drive then
         fnuTake n (s.setFnu { s.fnu with waiting := rest })
       else fnuTake n (evaluate (s.setFnu f))) ∧
   (∀ (f : Fnu) (c : TractionConditions) (d : Dir),
     copiesAfter f (.traction c d) =
       { f with drive := d, conditions := { f.conditions with moving := c.moving, accelerating := c.accelerating,
                                                              decelerating := c.decelerating, loaded := c.loaded,
                                                              stalled := c.stalled } }) ∧
   (∀ (f : Fnu) (on : Bool),
     copiesAfter f (.signalLost on) = { f with conditions := { f.conditions with signalLost := on } } ∧
     copiesAfter f (.coasting on) = { f with conditions := { f.conditions with coasting := on } } ∧
     copiesAfter f (.smokeReady on) = { f with conditions := { f.conditions with smokeReady := on } })) ∧
  (∀ (f : Fnu) (e : MapEntry),
     let c := f.conditions
     entryActive f e = true ↔
       e.used = true ∧
       (match e.trigger with
         | .function n => f.functions.getLsbD n
         | .condition n =>
           [c.moving, c.accelerating, c.decelerating, c.loaded, c.signalLost, c.coasting, c.stalled,
             c.smokeReady].getD n false) = true ∧
       (e.direction = some .any ∨ e.direction = some .fwd ∧ f.drive = .fwd ∨ e.direction = some .rev ∧ f.drive = .rev) ∧
       (e.motion = some .any ∨ e.motion = some .moving ∧ c.moving = true ∨
         e.motion = some .stopped ∧ c.moving = false)) ∧
  (∀ s : State,
     let entries := mapEntries s.tbs.active.map
     let now := entries.map (entryActive s.fnu)
     s.fnu.activity.length = entries.length →
     s.fnu.delivered = outputsFor (((entries.zip s.fnu.activity).filter (fun x => x.2)).map (fun x => x.1)) →
     (evaluate s).fnu.activity = now ∧
       Deliveries s (evaluate s) (outputsFor (entries.filter (entryActive s.fnu)))
         ((entries.zip (s.fnu.activity.zip now)).flatMap (fun x =>
           if x.2.1 = x.2.2 then []
           else
             match x.1.action with
             | some (.cue c) => [(c, x.2.2)]
             | _ => []))) ∧
  (∀ active : List MapEntry,
     (∀ n, n < 8 → ((outputsFor active).lamps.getD n none = none ↔
       ∀ e ∈ active, ∀ d, e.action ≠ some (.lamp n d))) ∧
     (∀ n before e after d, n < 8 → active = before ++ e :: after → e.action = some (.lamp n d) →
       (∀ x ∈ before, ∀ d', x.action ≠ some (.lamp n d')) → (outputsFor active).lamps.getD n none = some d) ∧
     ((outputsFor active).smoke = true ↔ ∃ e ∈ active, e.action = some .smoke) ∧
     ((outputsFor active).mute = true ↔ ∃ e ∈ active, e.action = some .mute) ∧
     ((outputsFor active).shunt = true ↔ ∃ e ∈ active, e.action = some .shunt) ∧
     ((outputsFor active).momentumOff = true ↔ ∃ e ∈ active, e.action = some .momentumOff)) ∧
  (∀ (s : State) (on : Bool),
     let u := tractionShunt s on
     let anchored := tableTarget s.tbs.active.speed s.trc.step
     TractionEvent s u ∧ u.trc.target = (if on then anchored / 2 else anchored) ∧
     u.trc.state = (match s.trc.state with
       | .idle => if 0 < u.trc.target ∧ s.trc.armed = true then .running else .idle
       | .running => if s.trc.ramp = 0 ∧ u.trc.target = 0 then .idle else .running
       | other => other) ∧
     u.trc = { s.trc with
       shunt := on, target := u.trc.target, state := u.trc.state
       drive := if s.trc.ramp = 0 then s.trc.stated else s.trc.drive, bemfTimer := u.trc.bemfTimer
       stallTimer := u.trc.stallTimer, outstanding := u.trc.outstanding, published := u.trc.published } ∧
     (u.trc.state = s.trc.state → u.trc.bemfTimer = s.trc.bemfTimer ∧ u.trc.stallTimer = s.trc.stallTimer) ∧
     (u.trc.state ≠ s.trc.state →
       u.trc.bemfTimer = (if s.regOn = true ∧ 0 < s.trc.ramp ∧ u.trc.state = .running then
                            some (s.trc.bemfTimer.getD (s.bemfPeriod * 1000)) else none) ∧
         StallTested s u s.trc.stallTimer)) ∧
  (∀ (s : State) (on : Bool),
     soundMute s on =
       s.setSnd { engineFollows s s.trc.published.moving (!on && (s.snd.power = .normal || s.snd.power = .coast)) with
                  mute := on })

/-- R60, R61, R63 and R64: in every step FNU's kept activity stays that of the map's entries, and the levels it has delivered
stay those that the active entries give and that its targets hold; R57, R58 and R98: TRC has published what it holds, and
FNU's copies come to what their owners hold. -/
def Obligations.MapAndCopiesStaySound : Prop :=
  (∀ s t : State, step s = .next t → (MapSafe s → MapSafe t) ∧ (DeliveredSafe s → DeliveredSafe t)) ∧
  (∀ s t : State, CopiesSafe s → step s = .next t → CopiesSafe t)

/-! ### Traction -/

/-- R71: the table target of a step lies between the first and the last anchor, on the line between its two neighbours, and
rises with the step. -/
def Obligations.TargetFollowsTheSpeedTable : Prop :=
  ∀ b : List Byte, speedOffence b = none →
    tableTarget b 0 = 0 ∧
    (∀ n, 1 ≤ n → n ≤ 240 → anchor b 0 ≤ tableTarget b n ∧ tableTarget b n ≤ anchor b 16 ∧ tableTarget b n ≤ 1023) ∧
    (∀ k, 1 ≤ k → k ≤ 16 → tableTarget b (15 * k) = anchor b k) ∧
    (∀ k r, k ≤ 15 → 1 ≤ r → r ≤ 14 →
      2 * (15 * tableTarget b (15 * k + r)) ≤ 2 * (15 * anchor b k + (anchor b (k + 1) - anchor b k) * r) + 15 ∧
      2 * (15 * anchor b k + (anchor b (k + 1) - anchor b k) * r) < 2 * (15 * tableTarget b (15 * k + r)) + 15) ∧
    ∀ m n, m ≤ n → n ≤ 240 → tableTarget b m ≤ tableTarget b n

/-- R73 to R75: a ramp tick, with the stall test that it makes (R94). That the test is made after what follows from V
reaching 0 is the model's reading (notes/assumptions/17), and so is that a tick which leaves V as it was works out L and
LOADED too (notes/assumptions/21). -/
def Obligations.RampTickMovesTheRamp : Prop :=
  ∀ s : State, running s = true →
    (s.trc.state = .tripped ∨ s.trc.state = .emergency ∨ s.trc.state = .lockout ∨ s.trc.state = .stalled ∨
      s.trc.state = .suspended → exec .rampTick s = .next (fnuSettle s)) ∧
    (s.trc.state = .idle ∨ s.trc.state = .running ∨ s.trc.state = .reversing ∨ s.trc.state = .failsafe →
      let goal := if s.trc.state = .idle ∨ s.trc.state = .running then 64 * s.trc.target else 0
      let land := s.trc.momentumOff = true ∧ s.trc.state ≠ .failsafe
      let fall := if s.trc.state = .failsafe then s.fsDecel else s.decel
      let v := if s.trc.ramp < goal then (if land ∨ s.accel = 0 then goal else min goal (s.trc.ramp + s.accel))
               else if goal < s.trc.ramp then (if land ∨ fall = 0 then goal else max goal (s.trc.ramp - fall))
               else s.trc.ramp
      let open_ := s.trc.state = .failsafe ∨ s.regOn = false ∧ s.trc.state ≠ .idle
      ∃ u, exec .rampTick s = .next (fnuSettle u) ∧ TractionEvent s u ∧ u.trc.ramp = v ∧
        u.trc.step = s.trc.step ∧ u.trc.stated = s.trc.stated ∧ u.trc.target = s.trc.target ∧
        u.trc.armed = s.trc.armed ∧ u.trc.dcap = s.trc.dcap ∧ u.trc.shunt = s.trc.shunt ∧
        u.trc.momentumOff = s.trc.momentumOff ∧
        u.trc.drive = (if v = 0 then s.trc.stated else s.trc.drive) ∧
        u.trc.state = (if v = 0 then
            match s.trc.state with
            | .failsafe => .idle
            | .idle => .idle
            | _ => if s.trc.target = 0 then .idle else .running
          else s.trc.state) ∧
        (v = 0 → 0 < s.trc.ramp →
          u.trc.duty = 0 ∧ u.trc.integral = 0 ∧ u.trc.speed = 0 ∧ u.trc.load = 0 ∧ u.trc.loaded = false) ∧
        (v / 64 = 0 → u.trc.duty = 0 ∧ u.trc.integral = 0 ∧ u.trc.load = 0) ∧
        (0 < v / 64 → open_ → u.trc.duty = min (v / 64) (min 1023 s.trc.dcap) ∧ u.trc.integral = 0 ∧ u.trc.load = 0) ∧
        (0 < v / 64 → ¬open_ → u.trc.duty = s.trc.duty ∧ u.trc.integral = s.trc.integral ∧
          u.trc.load = if s.regOn then min 255 (s.trc.duty - v / 64) else 0) ∧
        (0 < v → u.trc.speed = s.trc.speed ∧
          u.trc.loaded = if s.loadOn ≤ u.trc.load then true else if u.trc.load ≤ s.loadOff then false
                         else s.trc.loaded) ∧
        u.trc.bemfTimer = (if s.regOn = true ∧ 0 < v ∧ (u.trc.state = .running ∨ u.trc.state = .reversing) then
                             some (s.trc.bemfTimer.getD (s.bemfPeriod * 1000)) else none) ∧
        StallTested s u (if v = 0 ∧ 0 < s.trc.ramp then none else s.trc.stallTimer))

/-- R78, R105 and R124: the back-EMF timer expires; a request is placed if none is outstanding, and MBR takes it in DRIVE and
refuses it in OFF, BRAKE and TRIPPED. R95 and R75: the stall timer expires. R94 and R82: a change of Dcap makes the stall
test, which reads REG_ON as it is in force by the model's choice (notes/assumptions/23). That a stopped timer's expiry changes
nothing is the model's guard (notes/assumptions/2). -/
def Obligations.TractionTimersExpire : Prop :=
  (∀ s : State, running s = true → s.trc.bemfTimer = none → exec .bemfTimerExpiry s = .next s) ∧
  (∀ s : State, running s = true → s.trc.bemfTimer ≠ none →
     let timer := some (s.bemfPeriod * 1000)
     (s.trc.outstanding = true → exec .bemfTimerExpiry s = .next (s.setTrc { s.trc with bemfTimer := timer })) ∧
     (s.trc.outstanding = false → s.mbr.bridge = .off ∨ s.mbr.bridge = .brake ∨ s.mbr.bridge = .tripped →
       exec .bemfTimerExpiry s = .next (s.setTrc { s.trc with bemfTimer := timer })) ∧
     (s.trc.outstanding = false → s.mbr.bridge = .drive → s.mbr.gap = .noGap →
       exec .bemfTimerExpiry s =
         .next (((s.setTrc { s.trc with bemfTimer := timer, outstanding := true }).setMsq
           { s.msq with gap := .offered }).setMbr { s.mbr with gap := .pending }))) ∧
  (∀ s : State, running s = true →
     (s.trc.stallTimer = none → exec .stallTimerExpiry s = .next (fnuSettle s)) ∧
     (s.trc.stallTimer ≠ none → s.trc.state = .running ∨ s.trc.state = .reversing →
       ∃ u, exec .stallTimerExpiry s = .next (fnuSettle u) ∧ TractionEvent s u ∧
         u.trc = { s.trc with state := .stalled, armed := false, step := 0, target := 0, ramp := 0, duty := 0,
                              integral := 0, speed := 0, load := 0, loaded := false, bemfTimer := none,
                              stallTimer := none, drive := s.trc.stated, outstanding := u.trc.outstanding,
                              published := u.trc.published } ∧
         u.trc.published.stalled = true ∧
         (s.mbr.mode = .drive → DemandSafe s → BridgeSafe s → u.mbr.bridge = .off ∧ u.mbr.applied = 0))) ∧
  (∀ (s : State) (cap : Nat),
     let u := tractionCap s cap
     SameBut [.fnu, .trc, .mbr, .msq] s u ∧ StallTested s u s.trc.stallTimer ∧ u.trc.dcap = cap ∧
       u.trc.duty = min s.trc.duty (min 1023 cap) ∧ u.trc.state = s.trc.state ∧ u.trc.speed = s.trc.speed)

/-- R79, R80, R83 and R94: what a back-EMF result does at TRC. `raw` is the code; the conversion completes and MBR ends the gap
before TRC receives it. That a result which leaves D as it was works out LOADED too is the model's reading
(notes/assumptions/21). -/
def Obligations.BackEmfResultIsTaken : Prop :=
  ∀ (s : State) (code : BitVec 12), running s = true → s.msq.converting = some ⟨.bemf, .gap, .trc, false⟩ →
    let raw := code.toNat
    let speed := min 1023 (raw * s.bemfScale / 1024)
    let vi := s.trc.ramp / 64
    let e : Int := (vi : Int) - speed
    let p : Int := (e * s.kp).tdiv 16
    let bound := min 1023 s.trc.dcap
    let trial : Int := ((s.trc.integral / 256 : Nat) : Int) + p
    ∃ u, exec (.conversionComplete code) s = .next (fnuSettle u) ∧
      SameBut [.fnu, .trc, .mbr, .msq] s u ∧ u.trc.outstanding = false ∧
      u.trc.ramp = s.trc.ramp ∧ u.trc.step = s.trc.step ∧ u.trc.stated = s.trc.stated ∧
      u.trc.target = s.trc.target ∧ u.trc.armed = s.trc.armed ∧ u.trc.state = s.trc.state ∧
      u.trc.bemfTimer = s.trc.bemfTimer ∧
      ((s.trc.state = .running ∨ s.trc.state = .reversing) → s.regOn = true →
        u.trc.speed = speed ∧
        (0 < vi →
          (u.trc.integral : Int) =
            (if ((bound : Int) ≤ trial ∧ 0 < e) ∨ (trial ≤ 0 ∧ e < 0) then (s.trc.integral : Int)
             else max 0 (min 261888 (s.trc.integral + e * s.ki))) ∧
          (u.trc.duty : Int) = max 0 (min (bound : Int) (((u.trc.integral / 256 : Nat) : Int) + p)) ∧
          u.trc.load = min 255 (u.trc.duty - vi)) ∧
        (vi = 0 → u.trc.integral = 0 ∧ u.trc.duty = 0 ∧ u.trc.load = 0) ∧
        StallTested s u s.trc.stallTimer ∧
        u.trc.loaded = (if s.loadOn ≤ u.trc.load then true else if u.trc.load ≤ s.loadOff then false
                        else s.trc.loaded)) ∧
      (s.trc.state ≠ .running ∧ s.trc.state ≠ .reversing ∨ s.regOn = false →
        u.trc = { s.trc with outstanding := false, speed := if s.trc.ramp = 0 then s.trc.speed else speed } ∧
          u.fnu = s.fnu)

/-- R85 and R87: the ramp value rises only at a ramp tick, and then only while armed with a target above 0; the armed latch is
set only by a DRIVE or a HALT NORMAL. R76: the drive direction, at TRC and at the bridge, changes only in an event after
which the ramp value is 0. -/
def Obligations.RampRisesWhenArmedAndTurnsAtRest : Prop :=
  (∀ (i : Instr) (s t : State), exec i s = .next t →
     (s.trc.ramp < t.trc.ramp → i = .rampTick ∧ 0 < s.trc.target ∧ (LatchSafe s → s.trc.armed = true)) ∧
     (s.trc.armed = false → t.trc.armed = true → i = .drive ∨ i = .haltNormal)) ∧
  (∀ (i : Instr) (s t : State), exec i s = .next t → DemandSafe s →
     (t.trc.drive ≠ s.trc.drive → t.trc.ramp = 0) ∧ (t.mbr.drive ≠ s.mbr.drive → t.trc.ramp = 0))

/-- R82, R84, R85, R102 and Table 5-3: in every step traction keeps its laws: disarmed means step and target 0, a held
state means V 0, the demanded and the applied duty keep to the cap in force, and the values to their ranges. The last
rests on notes/assumptions/9. -/
def Obligations.TractionStaysSound : Prop :=
  (∀ s t : State, step s = .next t →
     (LatchSafe s → LatchSafe t) ∧ (DutySafe s → DutySafe t) ∧ (ActiveSafe s → RangeSafe s → RangeSafe t) ∧
       (DemandSafe s → DemandSafe t)) ∧
  (∀ s t : State, DutySafe s → DemandSafe s → BridgeSafe s → AppliedSafe s → step s = .next t → AppliedSafe t)

/-! ### The motor bridge -/

/-- R101: exactly the switches that the table names are closed, by the bridge state and the drive direction: a high side and
the other output's low side during the on-time of a period of DRIVE and none for the rest of it, the two low sides in BRAKE,
and none in OFF, GAP and TRIPPED; so no state closes the high and the low side of one output together. The on-time at duties
1023 and 0. R102: a high side opened by an at-once demand past its on-time stays open, whatever the duty applied in the rest
of its period. The opened mark is the model's (notes/assumptions/19). -/
def Obligations.BridgeNeverShorts : Prop :=
  ∀ (m : Mbr) (elapsed : Nat),
    (∀ x, x ∈ closedSwitches m elapsed ↔
      match m.bridge with
      | .drive =>
        (∃ p, m.period = some p ∧ p.opened = false ∧ elapsed * 1023 < p.length * m.applied) ∧
          (m.drive = .fwd ∧ (x = .highA ∨ x = .lowB) ∨ m.drive = .rev ∧ (x = .highB ∨ x = .lowA))
      | .brake => x = .lowA ∨ x = .lowB
      | .off => False
      | .gap => False
      | .tripped => False) ∧
    (∀ p, m.bridge = .drive → m.period = some p → p.opened = false → elapsed < p.length →
      (m.applied = 1023 → closedSwitches m elapsed ≠ []) ∧ (m.applied = 0 → closedSwitches m elapsed = [])) ∧
    ¬(.highA ∈ closedSwitches m elapsed ∧ .lowA ∈ closedSwitches m elapsed) ∧
    ¬(.highB ∈ closedSwitches m elapsed ∧ .lowB ∈ closedSwitches m elapsed) ∧
    (.highA ∈ closedSwitches m elapsed ∨ .highB ∈ closedSwitches m elapsed →
      m.bridge = .drive ∧ ∃ p, m.period = some p ∧ p.opened = false ∧ elapsed * 1023 < p.length * m.applied)

/-- R102 to R104: what MBR does with a demand, by its bridge state. R115: OFF and the emergency stop in TRIPPED
stop the retry timer. The time past in the period at an at-once demand is free (notes/assumptions/19); `past` stands for it. -/
def Obligations.BridgeTakesDemands : Prop :=
  ∀ (s : State) (m : Mode) (d : Dir) (duty : Nat) (atOnce : Bool),
    let t := takeDemand s m d duty atOnce
    let fresh : PwmPeriod :=
      { ordinal := s.mbr.periods + 1, length := pwmLength s.pwmFreq, past := 0, demands := 0, opened := false }
    SameBut [.trc, .mbr, .msq] s t ∧ t.mbr.mode = m ∧ t.mbr.drive = d ∧ t.mbr.demanded = duty ∧
    (m = .off → m ≠ s.mbr.mode → s.mbr.bridge ≠ .off →
      t.mbr.bridge = .off ∧ t.mbr.applied = 0 ∧ t.mbr.period = none ∧ t.mbr.tripFreeTimer = none ∧
        (s.mbr.bridge = .tripped → t.mbr.retryTimer = none)) ∧
    (m = .emergencyStop → s.mbr.bridge ≠ .brake →
      t.mbr.bridge = (if s.emergBrakes then .brake else .off) ∧ t.mbr.applied = 0 ∧ t.mbr.period = none ∧
        (s.mbr.bridge = .tripped → t.mbr.retryTimer = none)) ∧
    (m = .emergencyStop → s.mbr.bridge = .brake → t.mbr.bridge = .brake) ∧
    (m = .drive → m ≠ s.mbr.mode → s.mbr.bridge = .off ∨ s.mbr.bridge = .brake →
      t.mbr.bridge = .drive ∧ t.mbr.applied = duty ∧ t.mbr.period = some fresh ∧
        t.mbr.tripFreeTimer = some 2000000 ∧ t.mbr.tripLevel = s.tripLevelSetting ∧ t.mbr.currentHold = false) ∧
    (m = .drive → s.mbr.bridge = .tripped →
      t.mbr = { s.mbr with mode := m, drive := d, demanded := duty }) ∧
    (m = s.mbr.mode → m ≠ .emergencyStop → d ≠ s.mbr.drive → s.mbr.bridge = .drive ∨ s.mbr.bridge = .gap →
      t.mbr.bridge = .drive ∧ t.mbr.applied = duty ∧ t.mbr.period = some fresh ∧ t.mbr.gap = .noGap ∧
        t.mbr.tripFreeTimer = s.mbr.tripFreeTimer) ∧
    (m = s.mbr.mode → m ≠ .emergencyStop → d = s.mbr.drive →
      t.mbr = { s.mbr with demanded := duty, applied := t.mbr.applied, period := t.mbr.period } ∧ SameBut [.mbr] s t ∧
        (atOnce = false ∨ s.mbr.bridge ≠ .drive → t.mbr.applied = s.mbr.applied ∧ t.mbr.period = s.mbr.period) ∧
        (atOnce = true → s.mbr.bridge = .drive → t.mbr.applied = duty ∧
          (s.mbr.period = none → t.mbr.period = none) ∧
          ∀ p, s.mbr.period = some p →
            ∃ past, p.past ≤ past ∧ (p.past < p.length → past < p.length) ∧
              t.mbr.period = some { p with
                past := past, demands := p.demands + 1
                opened := p.opened || decide (p.length * duty ≤ past * 1023) })) ∧
    ((m = s.mbr.mode ∧ d = s.mbr.drive ∧ m ≠ .emergencyStop ∨ s.mbr.gap = .noGap) →
      t.msq = s.msq ∧ t.trc = s.trc)

/-- R102 and R106: a PWM period ends. R106, R125 and R114: the settle timer and the trip-free timer expire. That a period's end
outside DRIVE and the expiry of a stopped timer change nothing is the model's guard (notes/assumptions/2). -/
def Obligations.BridgeTimersExpire : Prop :=
  (∀ s : State, running s = true →
     (s.mbr.bridge ≠ .drive → exec .pwmPeriodEnd s = .next s) ∧
     (s.mbr.bridge = .drive → s.mbr.gap = .pending →
       exec .pwmPeriodEnd s =
         .next (s.setMbr { s.mbr with bridge := .gap, gap := .settling, applied := 0, period := none,
                                      settleTimer := some (s.gapSettle * 100) })) ∧
     (s.mbr.bridge = .drive → s.mbr.gap ≠ .pending →
       exec .pwmPeriodEnd s =
         .next (s.setMbr { s.mbr with applied := s.mbr.demanded, periods := s.mbr.periods + 1,
                                      period := some { ordinal := s.mbr.periods + 1,
                                                       length := if s.pwmFreq = 0 then 10000000
                                                                 else if s.pwmFreq = 1 then 50000 else 31250,
                                                       past := 0, demands := 0, opened := false } }))) ∧
  (∀ s : State, running s = true →
     (s.mbr.settleTimer ≠ none → s.msq.gap = .offered → s.msq.converting ≠ none →
       exec .settleTimerExpiry s =
         .next ((s.setMbr { s.mbr with gap := .ready, settleTimer := none }).setMsq { s.msq with gap := .pending })) ∧
     (s.mbr.settleTimer ≠ none → s.msq.gap = .offered → s.msq.converting = none → s.msq.slot = .empty →
       exec .settleTimerExpiry s =
         .next ((s.setMbr { s.mbr with gap := .ready, settleTimer := none }).setMsq
           { s.msq with gap := .converting, converting := some ⟨.bemf, .gap, .trc, false⟩ })) ∧
     (s.mbr.settleTimer = none → exec .settleTimerExpiry s = .next s) ∧
     exec .tripFreeTimerExpiry s =
       .next (if s.mbr.tripFreeTimer = none then s
              else s.setMbr { s.mbr with tripFreeTimer := none, overloads := 0 }))

/-- R109, R110 and R91: the bridge current rises above the level that the comparator keeps. R112 and R93: with the inject slot
full, the fourth overload is a lockout within the event. R115 stops the retry timer on a demand that ends a trip; that this
lockout stops it too is the model's reading (notes/assumptions/12). That no code is held yet and that the injected conversion
samples the hold, `heldCode` and `sample`, are the model's (notes/assumptions/22). -/
def Obligations.OvercurrentTrips : Prop :=
  ∀ (s : State) (ma : Nat), running s = true →
    (s.mbr.bridge ≠ .drive ∧ s.mbr.bridge ≠ .gap ∨ ma ≤ 50 * s.mbr.tripLevel →
      exec (.overcurrentTrip ma) s = .next (fnuSettle s)) ∧
    (s.mbr.bridge = .drive ∨ s.mbr.bridge = .gap → 50 * s.mbr.tripLevel < ma →
      s.trc.state = .running ∨ s.trc.state = .reversing ∨ s.trc.state = .failsafe →
      ∃ u, exec (.overcurrentTrip ma) s = .next (fnuSettle u) ∧ SameBut [.fnu, .trc, .mbr, .msq] s u ∧
        (s.msq.slot = .empty →
          u.trc = { s.trc with state := .tripped, integral := 0, duty := 0, load := 0, loaded := false,
                               bemfTimer := none, stallTimer := none,
                               drive := if s.trc.ramp = 0 then s.trc.stated else s.trc.drive,
                               outstanding := u.trc.outstanding, published := u.trc.published } ∧
          u.mbr.bridge = .tripped ∧ u.mbr.applied = 0 ∧ u.mbr.period = none ∧ u.mbr.gap = .noGap ∧
          (s.mbr.gap ≠ .noGap → u.mbr.settleTimer = none) ∧ u.mbr.tripFreeTimer = none ∧ u.mbr.currentHold = true ∧
          u.mbr.heldCode = none ∧ u.mbr.sample = .present ∧ u.mbr.awaited = true ∧
          u.mbr.overloads = s.mbr.overloads ∧ u.msq.results = s.msq.results ∧
          (s.msq.converting = none →
            u.msq.slot = .converting ⟨.motorI, .mbr, true⟩ ∧
              u.msq.converting = some ⟨.motorI, .inject, .mbr, false⟩) ∧
          (∀ c, s.msq.converting = some c → c.source = .scan →
            u.msq.slot = .converting ⟨.motorI, .mbr, true⟩ ∧ u.msq.pass = s.msq.pass ∧
              u.msq.converting = some ⟨.motorI, .inject, .mbr, false⟩) ∧
          (∀ c, s.msq.converting = some c → c.source = .queue →
            u.msq.slot = .converting ⟨.motorI, .mbr, true⟩ ∧
              u.msq.queue = ⟨c.channel, c.requester⟩ :: s.msq.queue.filter (fun r => r ≠ ⟨c.channel, c.requester⟩)) ∧
          (∀ c, s.msq.converting = some c → c.source = .gap → u.msq.slot = .waiting ⟨.motorI, .mbr, true⟩)) ∧
        (s.msq.slot ≠ .empty → s.mbr.overloads + 1 < 4 →
          u.trc.state = .tripped ∧ u.mbr.bridge = .tripped ∧ u.mbr.overloads = s.mbr.overloads + 1 ∧
            u.mbr.retryTimer = some 100000 ∧ u.mbr.awaited = false ∧ u.mbr.currentHold = true ∧
            u.msq.slot = s.msq.slot) ∧
        (s.msq.slot ≠ .empty → 4 ≤ s.mbr.overloads + 1 →
          u.trc = { s.trc with state := .lockout, armed := false, step := 0, target := 0, ramp := 0, duty := 0,
                               integral := 0, speed := 0, load := 0, loaded := false, bemfTimer := none,
                               stallTimer := none, drive := s.trc.stated, outstanding := u.trc.outstanding,
                               published := u.trc.published } ∧
            u.mbr.bridge = .off ∧ u.mbr.mode = .off ∧ u.mbr.applied = 0 ∧ u.mbr.period = none ∧ u.mbr.gap = .noGap ∧
            u.mbr.tripFreeTimer = none ∧ u.mbr.retryTimer = none ∧ u.mbr.overloads = 0 ∧
            u.mbr.lockoutShort = s.mbr.lockoutShort ∧ u.mbr.awaited = false ∧ u.mbr.currentHold = true ∧
            u.msq.slot = s.msq.slot ∧ u.msq.results = s.msq.results))

/-- R111, R112 and R93: the injected measurement of MOTOR_I judges a trip short or overload. R113 and R92: the retry
wait ends. `read` is the code that the measurement reads: under a hold of the current sense the held one (R110). That a hold's
first conversion brings its code is the model's choice (notes/assumptions/22). The duty at an entry to FAILSAFE here is the
model's reading (notes/assumptions/9). -/
def Obligations.TripsAreJudgedAndRetried : Prop :=
  (∀ (s : State) (code : BitVec 12), running s = true → s.msq.converting = some ⟨.motorI, .inject, .mbr, false⟩ →
     let read : BitVec 12 := match s.mbr.sample with
       | .present => if s.mbr.currentHold then s.mbr.heldCode.getD code else code
       | .own => code
       | .held k => k
     let lockout := s.shortLevel ≤ read.toNat ∨ 4 ≤ s.mbr.overloads + 1
     ∃ u, exec (.conversionComplete code) s = .next (fnuSettle u) ∧ SameBut [.fnu, .trc, .mbr, .msq] s u ∧
       u.mbr.awaited = false ∧ u.mbr.lockoutShort = (s.mbr.lockoutShort || decide (s.shortLevel ≤ read.toNat)) ∧
       u.mbr.overloads = (if lockout then 0 else s.mbr.overloads + 1) ∧
       (lockout → s.trc.state ≠ .suspended →
         u.trc.state = .lockout ∧ u.trc.armed = false ∧ u.trc.step = 0 ∧ u.trc.target = 0 ∧ u.trc.ramp = 0 ∧
           u.trc.duty = 0 ∧ u.trc.drive = s.trc.stated ∧ u.mbr.mode = .off) ∧
       (lockout → s.trc.state = .suspended →
         u.trc.state = .suspended ∧ u.trc.armed = false ∧ u.trc.step = 0 ∧ u.trc.target = 0) ∧
       (lockout → s.mbr.bridge = .tripped → u.mbr.bridge = .off) ∧
       (¬lockout → u.trc = s.trc ∧ u.fnu = s.fnu ∧ u.mbr.bridge = s.mbr.bridge ∧
         u.mbr.retryTimer = if s.mbr.bridge = .tripped then some 100000 else s.mbr.retryTimer)) ∧
  (∀ s : State, running s = true → s.mbr.bridge = .tripped → s.mbr.retryTimer ≠ none → s.mbr.mode = .drive →
     ∃ u, exec .retryTimerExpiry s = .next (fnuSettle u) ∧ SameBut [.fnu, .trc, .mbr, .msq] s u ∧
       u.mbr.retryTimer = none ∧ u.mbr.currentHold = false ∧ u.mbr.tripLevel = s.tripLevelSetting ∧
       u.mbr.overloads = s.mbr.overloads ∧
       (s.trc.state ≠ .tripped →
         u.trc = s.trc ∧ u.mbr.bridge = .drive ∧ u.mbr.applied = s.mbr.demanded ∧
           u.mbr.tripFreeTimer = some 2000000) ∧
       (s.trc.state = .tripped → 0 < s.trc.ramp →
         u.mbr.bridge = .drive ∧ u.mbr.tripFreeTimer = some 2000000 ∧
           u.trc.ramp = s.trc.ramp ∧ u.trc.armed = s.trc.armed ∧ u.trc.step = s.trc.step ∧
           u.trc.target = s.trc.target ∧ u.trc.drive = s.trc.drive ∧
           u.trc.state = (if s.trc.armed = false then .failsafe
                          else if s.trc.stated = s.trc.drive then .running else .reversing) ∧
           (s.trc.armed = false → u.trc.duty = min (s.trc.ramp / 64) (min 1023 s.trc.dcap) ∧ u.trc.integral = 0)) ∧
       (s.trc.state = .tripped → s.trc.ramp = 0 → s.trc.armed = true → s.trc.target = 0 →
         s.trc.stated = s.trc.drive →
         u.trc.state = .idle ∧ u.mbr.bridge = .off ∧ u.mbr.tripFreeTimer = none))

/-- R101 to R110, R118, R121 and R124 to R128: in every step the bridge agrees with the demand, the gap's three
parties agree, a BEMF conversion runs only within a settled gap, and the current sense holds only in TRIPPED and OFF. That
the retry timer runs only in TRIPPED rests on notes/assumptions/12, and what the sense keeps of a hold on
notes/assumptions/22. -/
def Obligations.BridgeAndSequencerStaySound : Prop :=
  ∀ s t : State, DemandSafe s → BridgeSafe s → GapSafe s → SequencerSafe s → BemfSafe s → step s = .next t →
    BridgeSafe t ∧ GapSafe t ∧ SequencerSafe t ∧ BemfSafe t ∧ (SenseSafe s → SenseSafe t)

/-! ### The measurement sequencer -/

/-- R119, R126 and R118: a completed conversion writes its channel's entry and no other; a void one writes none and delivers
nothing; then the arbiter acts, and chooses the highest source. R110: while the current sense holds, every conversion of
MOTOR_I that has sampled it reads one code, the one that the first of them read (notes/assumptions/22). That a completion
with no conversion running changes nothing is the model's guard (notes/assumptions/2). -/
def Obligations.ConversionWritesItsEntryAndTheArbiterActs : Prop :=
  (∀ (s : State) (code : BitVec 12), running s = true →
     (s.msq.converting = none → exec (.conversionComplete code) s = .next (fnuSettle s)) ∧
     ∀ c, s.msq.converting = some c →
       (c.void = true →
         exec (.conversionComplete code) s =
           .next (fnuSettle (s.setMsq (arbitrate { s.msq with converting := none })))) ∧
       (c.void = false → s.msq.results.length = 8 →
         let read : BitVec 12 :=
           if c.channel = .motorI then
             match s.mbr.sample with
             | .present => if s.mbr.currentHold then s.mbr.heldCode.getD code else code
             | .own => code
             | .held k => k
           else code
         ∃ t, exec (.conversionComplete code) s = .next t ∧
           (∀ k, resultOf t.msq k = if k = c.channel then read.toNat else resultOf s.msq k) ∧
           (c.channel = .motorI → c.source = .scan → c.requester = .scan → s.fnu.waiting = [] →
             t.mbr = { s.mbr with
               sample := .present,
               heldCode := if s.mbr.currentHold = true ∧ s.mbr.sample = .present then some read
                           else s.mbr.heldCode }))) ∧
  (∀ q : Msq, q.converting = none →
     (∀ r, q.slot = .waiting r →
       arbitrate q = { q with slot := .converting r, converting := some ⟨r.channel, .inject, r.requester, false⟩ }) ∧
     ((∀ r, q.slot ≠ .waiting r) →
       (q.gap = .pending →
         arbitrate q = { q with gap := .converting, converting := some ⟨.bemf, .gap, .trc, false⟩ }) ∧
       (q.gap ≠ .pending →
         (∀ r rest, q.queue = r :: rest →
           arbitrate q = { q with queue := rest, converting := some ⟨r.channel, .queue, r.requester, false⟩ }) ∧
         (q.queue = [] →
           (∀ c rest, q.pass = c :: rest →
             arbitrate q = { q with converting := some ⟨c, .scan, .scan, false⟩ }) ∧
           (q.pass = [] → arbitrate q = q)))))

/-- R129 and R130: the scan timer expires. -/
def Obligations.ScanTimerExpires : Prop :=
  ∀ s : State, running s = true → s.msq.scanTimer ≠ none →
    let timer := some (s.scanPeriod * 1000)
    (s.msq.pass ≠ [] → exec .scanTimerExpiry s = .next (s.setMsq { s.msq with scanTimer := timer })) ∧
    (s.msq.pass = [] →
      ∃ t, exec .scanTimerExpiry s = .next t ∧ SameBut [.msq] s t ∧
        (∀ c, c ∈ t.msq.pass ↔ c ≠ .bemf ∧ s.scanSet.testBit (channelNumber c) = true) ∧
        t.msq.pass.Pairwise (fun a b => channelNumber a < channelNumber b) ∧
        t.msq = arbitrate { s.msq with scanTimer := timer, pass := t.msq.pass })

/-! ### Cam and chuffs -/

/-- R133, R135 and R137 to R140: a cam tick, by what it reads: the departure, the silence watch, the source and the phase.
SILENCE_WATCH_ELAPSED and VIRTUAL_CHUFF are the ticks at which the watch elapses and the phase wraps
(notes/assumptions/7). -/
def Obligations.CamTickMovesThePhase : Prop :=
  ∀ s : State, running s = true →
    let now := s.cam.time + 2000
    (s.trc.ramp = 0 →
      exec .camTick s = .next (s.setCam { s.cam with time := now, moving := false }) ∧
        exec .silenceWatchElapsed s = .next s ∧ exec .virtualChuff s = .next s) ∧
    (0 < s.trc.ramp →
      let c : Cam := if s.cam.moving then { s.cam with time := now }
                     else { s.cam with time := now, moving := true, index := 0, accumulator := 0, previousEdge := none,
                                       inconsistentRun := 0, silenceRef := now }
      let vi := s.trc.ramp / 64
      let elapsed := c.qualification = .qualified ∧ 0 < vi ∧
        10 * max (3 * (200 * 1048576 / (vi * s.camScale))) 25000 ≤ now - c.silenceRef
      let quality := if elapsed then .unqualified else c.qualification
      let source : CamSource := if s.sensorPreferred = true ∧ quality = .qualified then .sensor else .virtual
      let start := if source = c.source then c.accumulator else if source = .sensor then 0 else 524288
      let phase := start + vi * s.camScale
      let after := s.setCam { c with qualification := quality,
                                     inconsistentRun := if elapsed then 0 else c.inconsistentRun, source := source,
                                     accumulator := if 1048576 ≤ phase then phase - 1048576 else phase }
      exec .camTick s = .next (if 1048576 ≤ phase ∧ source = .virtual then chuffEmitted after else after) ∧
        exec .silenceWatchElapsed s = (if elapsed then exec .camTick s else .next s) ∧
        exec .virtualChuff s = if 1048576 ≤ phase then exec .camTick s else .next s)

/-- R133 to R136, R138 and R140: an edge on CAM_IN: at rest it is ignored; too soon after the previous one it is rejected;
otherwise it is counted by its period, the source decided, and a chuff emitted while the source is SENSOR. -/
def Obligations.CamEdgeIsCounted : Prop :=
  ∀ (s : State) (offset : Nat), running s = true →
    let now := s.cam.time + offset
    (s.trc.ramp = 0 → exec (.camEdge offset) s = .next (s.setCam { s.cam with moving := false })) ∧
    (0 < s.trc.ramp →
      let c : Cam := if s.cam.moving then s.cam
                     else { s.cam with moving := true, index := 0, accumulator := 0, previousEdge := none,
                                       inconsistentRun := 0, silenceRef := now }
      let vi := s.trc.ramp / 64
      let pv := 200 * 1048576 / (vi * s.camScale)
      (∀ t, c.previousEdge = some t → now - t < 1000 * s.camDebounce →
        exec (.camEdge offset) s = .next (s.setCam c)) ∧
      ((∀ t, c.previousEdge = some t → 1000 * s.camDebounce ≤ now - t) →
        let kind : EdgeKind := match c.previousEdge with
          | none => .opening
          | some t =>
            let period := min 65535 ((now - t) / 10)
            if vi = 0 then .opening else if pv ≤ 2 * period ∧ period ≤ 2 * pv then .consistent else .inconsistent
        let counted : Qualification × Nat := match kind, c.qualification with
          | .opening, q => (q, c.inconsistentRun)
          | .consistent, .unqualified => (.qualifying 1, c.inconsistentRun)
          | .consistent, .qualifying n =>
            if n < 3 then (.qualifying (n + 1), c.inconsistentRun) else (.qualified, 0)
          | .consistent, .qualified => (.qualified, 0)
          | .inconsistent, .unqualified => (.unqualified, c.inconsistentRun)
          | .inconsistent, .qualifying _ => (.unqualified, c.inconsistentRun)
          | .inconsistent, .qualified => if c.inconsistentRun = 0 then (.qualified, 1) else (.unqualified, 0)
        let source : CamSource := if s.sensorPreferred = true ∧ counted.1 = .qualified then .sensor else .virtual
        let after := s.setCam { c with previousEdge := some now, qualification := counted.1,
                                       inconsistentRun := counted.2,
                                       silenceRef := if counted.1 = .qualified then now else c.silenceRef,
                                       source := source,
                                       accumulator := if source = c.source then c.accumulator
                                                      else if source = .sensor then 0 else 524288 }
        exec (.camEdge offset) s = .next (if source = .sensor then chuffEmitted after else after)))

/-- R140, R141, R153 and R172: what the emission of a chuff event does at CAM, at SND and at SMK. The chuff voice's start order 0
is the model's (notes/assumptions/15). -/
def Obligations.ChuffReachesSoundAndSmoke : Prop :=
  ∀ s : State,
    let t := chuffEmitted s
    let carried := if s.cpr ≤ s.cam.index then 0 else s.cam.index
    let cue := s.chuffCue + carried
    let r := s.cueRecord cue
    SameBut [.cam, .snd, .smk] s t ∧
      t.cam = { s.cam with index := if carried + 1 = s.cpr then 0 else carried + 1 } ∧
      t.snd = (if s.snd.on = true ∧ r.length ≠ 0 then
                 { s.snd with chuff := { cue := some cue, position := 0, held := false, order := 0,
                                         volume := min 255 (r.volume + s.trc.load * s.loadGain / 256) } }
               else s.snd) ∧
      t.smk = if s.smk.state = .ready ∧ (s.smk.power = .normal ∨ s.smk.power = .coast) then
                { s.smk with fan := min 255 (s.fanPuff + s.trc.load / 4), puffTimer := some (10000 * s.puffTime) }
              else s.smk

/-! ### Sound -/

/-- R161, R162 and R163: an output sample is 0 while the engine is OFF; while it is ON the sample is the sum of the
contributions, scaled by the master volume and clamped, and a voice whose sample is not in time contributes nothing and
sets SAMPLE_UNDERRUN. That SND reads MOVING as TRC has published it is the model's reading (notes/assumptions/17). -/
def Obligations.OutputSampleIsMixed : Prop :=
  ∀ (s : State) (inTime : BitVec 6), running s = true →
    (s.snd.on = false → exec (.outputSample inTime) s = .next (s.setSnd { s.snd with output := 0 })) ∧
    (s.snd.on = true → s.snd.pool.length = 4 →
      let idle := if s.trc.published.moving then s.bgRunCue else s.bgIdleCue
      let background : Voice :=
        if s.snd.background.cue = none then
          (if (s.cueRecord idle).length = 0 then voiceFree
           else { cue := some idle, position := 0, held := true, volume := (s.cueRecord idle).volume, order := 0 })
        else s.snd.background
      let voices := s.snd.chuff :: background :: s.snd.pool
      let part (n : Nat) : Int :=
        let v := voices.getD n voiceFree
        match v.cue with
        | none => 0
        | some c =>
          let a := (s.cueRecord c).start + 2 * v.position
          let sample : BitVec 16 := readCell s.samples (a + 1) ++ readCell s.samples a
          if s.snd.writeState = .idle ∧ inTime.getLsbD n = true then sample.toInt * v.volume / 256 else 0
      let m := min s.volume s.snd.cap
      let mixed := (part 0 + part 1 + part 2 + part 3 + part 4 + part 5) * m / 256
      ∃ t, exec (.outputSample inTime) s = .next t ∧ SameBut [.snd] s t ∧ t.snd.master = m ∧
        t.snd.output = max (-32768) (min 32767 mixed) ∧
        (t.snd.underrun = true ↔ s.snd.underrun = true ∨
          ∃ n, n < 6 ∧ (voices.getD n voiceFree).cue ≠ none ∧
            ¬(s.snd.writeState = .idle ∧ inTime.getLsbD n = true)) ∧
        t.snd.on = true ∧ t.snd.mute = s.snd.mute ∧ t.snd.power = s.snd.power ∧ t.snd.cap = s.snd.cap ∧
        t.snd.writeState = s.snd.writeState)

/-- R150, R151, R155, R160 and R161: after an output sample every voice that plays moves on: back to its loop start while it
is held and reaches its loop end, on to its next cue or free at its end, and otherwise by one sample. An idle background
voice first makes its choice. `q` is the pool, the resume stack and the newest start order as the pool voices before each
one have left them. What a voice that falls free holds is the model's (notes/assumptions/15), and so is that SND reads MOVING
as TRC has published it (notes/assumptions/17). -/
def Obligations.VoicesMoveOn : Prop :=
  ∀ (s : State) (inTime : BitVec 6), running s = true → s.snd.on = true → s.snd.pool.length = 4 →
    let looped (v : Voice) (r : CueRecord) : Prop := r.loop = true ∧ v.held = true ∧ v.position + 1 = r.loopEnd
    let finished (v : Voice) (r : CueRecord) : Prop := ¬looped v r ∧ v.position + 1 = r.length
    let selected := if s.trc.published.moving then s.bgRunCue else s.bgIdleCue
    let choice : Voice :=
      if (s.cueRecord selected).length = 0 then voiceFree
      else { cue := some selected, position := 0, held := true, volume := (s.cueRecord selected).volume, order := 0 }
    ∃ t, exec (.outputSample inTime) s = .next t ∧
      (s.snd.chuff.cue = none → t.snd.chuff = s.snd.chuff) ∧
      (∀ c, s.snd.chuff.cue = some c →
        let v := s.snd.chuff
        let r := s.cueRecord c
        (looped v r → t.snd.chuff = { v with position := r.loopStart }) ∧
        (finished v r → ∀ n, r.next = some n → (s.cueRecord n).length ≠ 0 →
          t.snd.chuff = { cue := some n, position := 0, held := false, order := 0,
                          volume := min 255 ((s.cueRecord n).volume + s.trc.load * s.loadGain / 256) }) ∧
        (finished v r → (∀ n, r.next = some n → (s.cueRecord n).length = 0) → t.snd.chuff = voiceFree) ∧
        (¬looped v r → ¬finished v r → t.snd.chuff = { v with position := v.position + 1 })) ∧
      (∀ c, s.snd.background.cue = some c →
        let v := s.snd.background
        let r := s.cueRecord c
        (looped v r → t.snd.background = if selected = c then { v with position := r.loopStart } else choice) ∧
        (finished v r → t.snd.background = choice) ∧
        (¬looped v r → ¬finished v r → t.snd.background = { v with position := v.position + 1 })) ∧
      (s.snd.background.cue = none →
        ((s.cueRecord selected).length = 0 → t.snd.background = voiceFree) ∧
        ((s.cueRecord selected).length ≠ 0 →
          let r := s.cueRecord selected
          (looped choice r → t.snd.background = { choice with position := r.loopStart }) ∧
          (finished choice r → t.snd.background = choice) ∧
          (¬looped choice r → ¬finished choice r → t.snd.background = { choice with position := 1 }))) ∧
      (∃ q : Nat → List Voice × List Nat × Nat,
        q 0 = (s.snd.pool, s.snd.stack, s.snd.nextOrder) ∧ q 4 = (t.snd.pool, t.snd.stack, t.snd.nextOrder) ∧
        ∀ p, p < 4 →
          let pool := (q p).1
          let stack := (q p).2.1
          let order := (q p).2.2
          let v := pool.getD p voiceFree
          let starts (n position : Nat) (held : Bool) (left : List Nat) : List Voice × List Nat × Nat :=
            (pool.set p { cue := some n, position := position, held := held, volume := (s.cueRecord n).volume,
                          order := order }, left, order + 1)
          let free := match stack with
            | [] => (pool.set p voiceFree, [], order)
            | top :: rest => starts top (s.cueRecord top).loopStart true rest
          (v.cue = none → q (p + 1) = q p) ∧
          ∀ c, v.cue = some c →
            let r := s.cueRecord c
            (looped v r → q (p + 1) = (pool.set p { v with position := r.loopStart }, stack, order)) ∧
            (¬looped v r → ¬finished v r →
              q (p + 1) = (pool.set p { v with position := v.position + 1 }, stack, order)) ∧
            (finished v r → r.next = none → q (p + 1) = free) ∧
            (finished v r → ∀ n, r.next = some n →
              let elsewhere := ∃ j, j < 4 ∧ j ≠ p ∧ (pool.getD j voiceFree).cue = some n
              ((s.cueRecord n).length = 0 ∨ elsewhere → q (p + 1) = free) ∧
              ((s.cueRecord n).length ≠ 0 → ¬elsewhere → n ∈ stack →
                q (p + 1) = starts n 0 true (stack.filter (fun x => x ≠ n))) ∧
              ((s.cueRecord n).length ≠ 0 → ¬elsewhere → n ∉ stack → q (p + 1) = starts n 0 v.held stack))) ∧
      (∀ p c, p < 4 → (s.snd.pool.getD p voiceFree).cue = some c →
        let v := s.snd.pool.getD p voiceFree
        let r := s.cueRecord c
        let w := t.snd.pool.getD p voiceFree
        (looped v r → w = { v with position := r.loopStart }) ∧
        (finished v r → r.next = none → s.snd.stack = [] → w = voiceFree) ∧
        (¬looped v r → ¬finished v r → w = { v with position := v.position + 1 })) ∧
      (∀ p, p < 4 → (s.snd.pool.getD p voiceFree).cue = none → t.snd.pool.getD p voiceFree = s.snd.pool.getD p voiceFree) ∧
      ((∀ p c, p < 4 → (s.snd.pool.getD p voiceFree).cue = some c →
          ¬finished (s.snd.pool.getD p voiceFree) (s.cueRecord c)) →
        t.snd.stack = s.snd.stack ∧ t.snd.nextOrder = s.snd.nextOrder)

/-- R156 to R159: a triggered cue restarts where it plays, or takes the lowest free voice, or contests the voice of the
lowest priority that started first; a released cue is held no longer and leaves the resume stack. -/
def Obligations.TriggersAndReleasesUseThePool : Prop :=
  ∀ (s : State) (c : Nat), s.snd.pool.length = 4 →
    let r := s.cueRecord c
    let started : Voice :=
      { cue := some c, position := 0, held := true, volume := r.volume, order := s.snd.nextOrder }
    let pool := s.snd.pool
    let voice (p : Nat) : Voice := pool.getD p voiceFree
    let priority (p : Nat) : Nat := (s.cueRecord ((voice p).cue.getD 64)).priority
    let stack := s.snd.stack.filter (fun x => x ≠ c)
    (s.snd.on = false ∨ r.length = 0 → soundTrigger s c = s) ∧
    (s.snd.on = true → r.length ≠ 0 →
      (∀ p, p < 4 → (voice p).cue = some c → (∀ j, j < p → (voice j).cue ≠ some c) →
        soundTrigger s c =
          s.setSnd { s.snd with pool := pool.set p started, nextOrder := s.snd.nextOrder + 1 }) ∧
      ((∀ p, p < 4 → (voice p).cue ≠ some c) →
        (∀ p, p < 4 → (voice p).cue = none → (∀ j, j < p → (voice j).cue ≠ none) →
          soundTrigger s c =
            s.setSnd { s.snd with pool := pool.set p started, nextOrder := s.snd.nextOrder + 1, stack := stack }) ∧
        ((∀ p, p < 4 → (voice p).cue ≠ none) →
          ∀ p b, p < 4 → (voice p).cue = some b →
            (∀ j, j < 4 → j ≠ p →
              priority p < priority j ∨ priority p = priority j ∧ (voice p).order < (voice j).order) →
            (priority p < r.priority →
              soundTrigger s c =
                s.setSnd { s.snd with pool := pool.set p started, nextOrder := s.snd.nextOrder + 1,
                                      stack := if (s.cueRecord b).loop = true ∧ (voice p).held = true then
                                                 b :: stack.take 3 else stack }) ∧
            (r.priority ≤ priority p →
              soundTrigger s c =
                s.setSnd { s.snd with stack := if r.loop then c :: stack.take 3 else stack })))) ∧
    (s.snd.on = false → soundRelease s c = s) ∧
    (s.snd.on = true →
      soundRelease s c =
        s.setSnd { s.snd with pool := pool.map (fun v => if v.cue = some c then { v with held := false } else v),
                              stack := stack })

/-- R146 and R147: what a SAMPLE_ERASE and a SAMPLE_WRITE answer and begin. -/
def Obligations.SampleRequestsFollowTheirTests : Prop :=
  ∀ (s : State) (f : Frame) (rest : List Frame) (via : Via), HandedOn s f rest via →
    let s0 := frameTaken s f rest
    let sector := word16At (framePayload f) 0
    let address := word24At (framePayload f) 0
    let data := (framePayload f).drop 3
    let answer (kind : Nat) (code : ResultCode) (detail : Nat) (u : State) :=
      offerReply u (resultFrame s.primaryAddress kind code detail)
    (frameKind f = 10 →
      (s.snd.on = true → exec .sampleErase s = .next (answer 10 .soundOn 0 s0)) ∧
      (s.snd.on = false → s.snd.writeState ≠ .idle → exec .sampleErase s = .next (answer 10 .busy 0 s0)) ∧
      (s.snd.on = false → s.snd.writeState = .idle → 4095 < sector →
        exec .sampleErase s = .next (answer 10 .range 0 s0)) ∧
      (s.snd.on = false → s.snd.writeState = .idle → sector ≤ 4095 →
        exec .sampleErase s =
          .next (answer 10 .accepted sector (s0.setSnd { s.snd with writeState := .erasing sector })))) ∧
    (frameKind f = 11 →
      (s.snd.on = true → exec .sampleWrite s = .next (answer 11 .soundOn 0 s0)) ∧
      (s.snd.on = false → s.snd.writeState ≠ .idle → exec .sampleWrite s = .next (answer 11 .busy 0 s0)) ∧
      (s.snd.on = false → s.snd.writeState = .idle → 16777216 < address + data.length →
        exec .sampleWrite s = .next (answer 11 .range 0 s0)) ∧
      (s.snd.on = false → s.snd.writeState = .idle → address + data.length ≤ 16777216 →
        exec .sampleWrite s =
          .next (answer 11 .accepted data.length
            (s0.setSnd { s.snd with writeState := .programming address data }))))

/-- R146 and R147: a completed erase leaves 0xFF in every byte of its sector, and a completed program the AND of old and new
in each of its bytes; every other byte of the sample memory reads as before. -/
def Obligations.EraseAndProgramChangeTheirBytes : Prop :=
  ∀ s : State, running s = true → memoryWf s.samples = true →
    (∀ sector, s.snd.writeState = .erasing sector →
      ∃ t, exec .eraseComplete s = .next t ∧ SameBut [.snd, .samples] s t ∧
        t.snd = { s.snd with writeState := .idle } ∧
        ∀ a, readCell t.samples a =
          if 4096 * sector ≤ a ∧ a ≤ 4096 * sector + 4095 then 0xFF else readCell s.samples a) ∧
    (∀ (address : Nat) (data : List Byte), s.snd.writeState = .programming address data →
      ∃ t, exec .programComplete s = .next t ∧ SameBut [.snd, .samples] s t ∧
        t.snd = { s.snd with writeState := .idle } ∧
        ∀ a, readCell t.samples a =
          if address ≤ a ∧ a < address + data.length then readCell s.samples a &&& data.getD (a - address) 0
          else readCell s.samples a)

/-! ### Smoke and lamps -/

/-- R168 and R172: the request, age and puff timers of SMK expire; that a stopped one does nothing is the model's guard
(notes/assumptions/2). R169 and R170: what a SMOKE_T result does. R167, R171 and R173: what smoke enable, Hmax and a power
announcement do, from `s` to `u`. -/
def Obligations.SmokeTimersAndResults : Prop :=
  (∀ s : State, running s = true →
    exec .smokeRequestTimerExpiry s =
      .next (if s.smk.requestTimer = none then s
             else (s.setSmk { s.smk with requestTimer := some 100000 }).setMsq
               (queueRequest s.msq ⟨.smokeT, .smk⟩)) ∧
    exec .ageTimerExpiry s =
      .next (if s.smk.ageTimer = none then s
             else s.setSmk { s.smk with ageTimer := none, fresh := false, heater := 0 }) ∧
    exec .puffTimerExpiry s =
      .next (if s.smk.puffTimer = none then s else s.setSmk { s.smk with puffTimer := none, fan := s.fanIdle })) ∧
  (∀ (s : State) (code : BitVec 12), running s = true →
    s.msq.converting = some ⟨.smokeT, .queue, .smk, false⟩ →
    let tm := code.toNat
    let k := s.smk
    let warm := s.smkTarget ≤ tm + s.smkBand
    ∃ u, exec (.conversionComplete code) s = .next (fnuSettle u) ∧ SameBut [.fnu, .msq, .smk] s u ∧
      u.fnu = { s.fnu with waiting := s.fnu.waiting ++
                  (if (u.smk.state = .ready ↔ k.state = .ready) then [] else [.smokeReady (u.smk.state = .ready)]) } ∧
      (k.state = .off ∨ k.state = .fault → u.smk = k) ∧
      (k.state = .heating ∨ k.state = .ready ∨ k.state = .suspended →
        (s.smkDry ≤ tm →
          u.smk = { k with temperature := some tm, fresh := true, state := .fault, heater := 0, fan := 0,
                           requestTimer := none, ageTimer := none, puffTimer := none, dry := true }) ∧
        (tm < s.smkDry → k.state = .suspended →
          u.smk = { k with temperature := some tm, fresh := true, ageTimer := some 500000 }) ∧
        (tm < s.smkDry → k.state ≠ .suspended →
          u.smk = { k with temperature := some tm, fresh := true, ageTimer := some 500000, heater := u.smk.heater,
                           state := if warm then .ready else .heating,
                           fan := if k.state = .ready ∧ ¬warm then s.fanIdle else k.fan,
                           puffTimer := if k.state = .ready ∧ ¬warm then none else k.puffTimer } ∧
          (u.smk.heater : Int) = max 0 (min (k.hmax : Int) (((s.smkTarget : Int) - tm) * s.smkGain / 16))))) ∧
  (∀ s : State,
    let k := s.smk
    let works := k.state = .heating ∨ k.state = .ready
    let becomes (u : State) (k' : Smk) : Prop :=
      SameBut [.fnu, .smk] s u ∧ u.smk = k' ∧
        u.fnu = { s.fnu with waiting := s.fnu.waiting ++ if k.state = .ready then [.smokeReady false] else [] }
    (k.state ≠ .off → smokeEnable s true = s.setSmk { k with enable := true }) ∧
    (k.state = .off →
      smokeEnable s true =
        (s.setSmk { k with enable := true, temperature := none, fresh := false, heater := 0, fan := s.fanIdle,
                           requestTimer := some 100000, state := if k.hmax = 0 then .suspended else .heating,
                           puffTimer := if k.hmax = 0 then none else k.puffTimer }).setMsq
          (queueRequest s.msq ⟨.smokeT, .smk⟩)) ∧
    (k.state = .off → smokeEnable s false = s.setSmk { k with enable := false }) ∧
    (k.state ≠ .off →
      becomes (smokeEnable s false) { k with enable := false, state := .off, heater := 0, fan := 0,
                                             requestTimer := none, ageTimer := none, puffTimer := none }) ∧
    (works → becomes (smokeCap s 0) { k with hmax := 0, state := .suspended, heater := 0, fan := s.fanIdle,
                                             puffTimer := none }) ∧
    (∀ hmax, works → 0 < hmax → smokeCap s hmax = s.setSmk { k with hmax := hmax, heater := min k.heater hmax }) ∧
    (∀ hmax, k.state = .suspended → 0 < hmax →
      ∃ h : Nat, smokeCap s hmax = s.setSmk { k with hmax := hmax, state := .heating, heater := h } ∧
        (k.fresh = false ∨ k.temperature = none → h = 0) ∧
        (∀ tm, k.fresh = true → k.temperature = some tm →
          (h : Int) = max 0 (min (hmax : Int) (((s.smkTarget : Int) - tm) * s.smkGain / 16)))) ∧
    (∀ hmax, k.state = .off ∨ k.state = .fault ∨ k.state = .suspended ∧ hmax = 0 →
      smokeCap s hmax = s.setSmk { k with hmax := hmax }) ∧
    (works → smokePower s .normal = s.setSmk { k with power := .normal, fan := s.fanIdle, puffTimer := none }) ∧
    (∀ p, works → p ≠ .normal →
      becomes (smokePower s p) { k with power := p, state := .suspended, heater := 0, fan := s.fanIdle,
                                        puffTimer := none }) ∧
    (∀ p, ¬works →
      smokePower s p = s.setSmk { k with power := p, fan := if k.state = .suspended then s.fanIdle else 0 }) ∧
    fanLine k = if k.power = .init ∨ k.power = .hold then 0 else k.fan)

/-- R175 to R179: what a lamp output shows on a demand, on a change of the dim flag alone, at a power announcement, at an
advance of the flicker generator, and when its blink or its soft timer expires. That a SOFT output demanded on starts its
soft timer anew is the model's reading (notes/assumptions/10), and that a stopped timer's expiry changes nothing its guard
(notes/assumptions/2). -/
def Obligations.LampsShowTheirDemands : Prop :=
  ∀ s : State, s.lmp.outputs.length = 8 →
    let lamp (n : Nat) : Lamp := s.lmp.outputs.getD n lampReset
    let bright (n : Nat) (dim : Bool) : Nat :=
      if dim then (s.lampRecord n).brightness / 2 else (s.lampRecord n).brightness
    let flickering (n : Nat) (dim : Bool) (reg : BitVec 16) : Nat := bright n dim * (32 + reg.toNat % 32) / 64
    let lit := s.lmp.power = .normal ∨ s.lmp.power = .coast
    let put (n : Nat) (o : Lamp) : State := s.setLmp { s.lmp with outputs := s.lmp.outputs.set n o }
    (∀ n d, n < 8 → ¬lit →
      lampDemanded s n none = put n { lamp n with on := false } ∧
      lampDemanded s n (some d) = put n { lamp n with on := true, effect := d.effect, dim := d.dim }) ∧
    (∀ n d, n < 8 → lit → (lamp n).on = false ∨ (lamp n).effect ≠ d.effect → d.effect ≠ .soft →
      lampDemanded s n (some d) =
        put n { lamp n with on := true, effect := d.effect, dim := d.dim, softTimer := none,
                            lit := if d.effect = .blink then true else (lamp n).lit,
                            blinkTimer := if d.effect = .blink then some (10000 * (s.lampRecord n).halfPeriod) else none,
                            shown := if d.effect = .flicker then flickering n d.dim s.lmp.flicker
                                     else bright n d.dim }) ∧
    (∀ n, n < 8 → lit → (lamp n).effect ≠ .soft →
      lampDemanded s n none = put n { lamp n with on := false, blinkTimer := none, shown := 0 }) ∧
    (∀ n d, n < 8 → lit → (lamp n).on = false ∨ (lamp n).effect ≠ d.effect → d.effect = .soft →
      let level := if (lamp n).effect = .soft then (lamp n).soft else (lamp n).shown
      lampDemanded s n (some d) =
        put n { lamp n with on := true, effect := .soft, dim := d.dim, soft := level, shown := level, blinkTimer := none,
                            softTimer := if level = bright n d.dim then none
                                         else some (1000 * (s.lampRecord n).softStep) }) ∧
    (∀ n, n < 8 → lit → (lamp n).effect = .soft →
      lampDemanded s n none =
        put n { lamp n with on := false, blinkTimer := none, shown := (lamp n).soft,
                            softTimer := if (lamp n).soft = 0 then none
                                         else some ((lamp n).softTimer.getD (1000 * (s.lampRecord n).softStep)) }) ∧
    (∀ n d, n < 8 → lit → (lamp n).on = true → (lamp n).effect = d.effect →
      lampDemanded s n (some d) =
        put n { lamp n with
          dim := d.dim
          shown := match d.effect with
            | .steady => bright n d.dim
            | .flicker => flickering n d.dim s.lmp.flicker
            | .blink => if (lamp n).lit then bright n d.dim else 0
            | .soft => (lamp n).soft
          softTimer :=
            if d.effect = .soft then
              (if (lamp n).soft = bright n d.dim then none
               else some ((lamp n).softTimer.getD (1000 * (s.lampRecord n).softStep)))
            else (lamp n).softTimer }) ∧
    (∀ p, SameBut [.lmp] s (lampsPower s p) ∧ (lampsPower s p).lmp.power = p ∧
      (lampsPower s p).lmp.flicker = s.lmp.flicker ∧ (lampsPower s p).lmp.outputs.length = 8 ∧
      ∀ n, n < 8 →
        let o := lamp n
        let dark : Lamp := { o with shown := 0, soft := 0, blinkTimer := none, softTimer := none }
        (lampsPower s p).lmp.outputs.getD n lampReset =
          if p = .init ∨ p = .hold then dark
          else if lit then o
          else if o.on = false then dark
          else
            match o.effect with
            | .steady => { dark with shown := bright n o.dim }
            | .flicker => { dark with shown := flickering n o.dim s.lmp.flicker }
            | .blink => { dark with lit := true, shown := bright n o.dim,
                                    blinkTimer := some (10000 * (s.lampRecord n).halfPeriod) }
            | .soft => { dark with softTimer := if bright n o.dim = 0 then none
                                                else some (1000 * (s.lampRecord n).softStep) }) ∧
    (running s = true →
      (∃ t, exec .flickerAdvance s = .next t ∧ SameBut [.lmp] s t ∧ t.lmp.power = s.lmp.power ∧
        t.lmp.outputs.length = 8 ∧
        (∀ k, k < 15 → t.lmp.flicker.getLsbD k = s.lmp.flicker.getLsbD (k + 1)) ∧
        (t.lmp.flicker.getLsbD 15 =
          (((s.lmp.flicker.getLsbD 0 ^^ s.lmp.flicker.getLsbD 2) ^^ s.lmp.flicker.getLsbD 3) ^^
            s.lmp.flicker.getLsbD 5)) ∧
        ∀ n, n < 8 →
          t.lmp.outputs.getD n lampReset =
            if lit ∧ (lamp n).on = true ∧ (lamp n).effect = .flicker then
              { lamp n with shown := flickering n (lamp n).dim t.lmp.flicker }
            else lamp n) ∧
      (∀ n : Fin 8,
        ((lamp n).blinkTimer = none → exec (.blinkTimerExpiry n) s = .next s) ∧
        ((lamp n).blinkTimer ≠ none → (lamp n).effect = .blink →
          exec (.blinkTimerExpiry n) s =
            .next (put n { lamp n with lit := !(lamp n).lit,
                                       blinkTimer := some (10000 * (s.lampRecord n).halfPeriod),
                                       shown := if (lamp n).on = true ∧ (lamp n).lit = false then
                                                  bright n (lamp n).dim else 0 })) ∧
        ((lamp n).softTimer = none → exec (.softTimerExpiry n) s = .next s) ∧
        ((lamp n).softTimer ≠ none → (lamp n).effect = .soft →
          let aim := if (lamp n).on then bright n (lamp n).dim else 0
          let level := if (lamp n).soft < aim then (lamp n).soft + 1
                       else if aim < (lamp n).soft then (lamp n).soft - 1 else (lamp n).soft
          exec (.softTimerExpiry n) s =
            .next (put n { lamp n with soft := level, shown := level,
                                       softTimer := if level = aim then none
                                                    else some (1000 * (s.lampRecord n).softStep) }))))

/-! ### Power -/

/-- R182 to R185: presence, qualification, the active source and the fast return, with the announcements that follow (R97,
R152, R173, R179). The order of announcements and caps is the model's (notes/assumptions/13), so is the guard by which a
voltage that contradicts its command, or the expiry of a stopped timer, changes nothing (notes/assumptions/2), and a
voltage at the level counts as present (notes/assumptions/20). What the voices of an engine going OFF or starting hold, and
that SND reads MOVING as TRC has published it, are the model's as well (notes/assumptions/15, 17). -/
def Obligations.SourcesComeAndGo : Prop :=
  ∀ (s : State) (x : Supply), running s = true →
    let v := supplyOf s.ppm x
    let other := supplyOf s.ppm (otherSupply x)
    let wait := match x with | .track => 50000 | .battery => 20000
    let level := match x with | .track => 16 * s.trackMin | .battery => 16 * s.battMin
    let wins := s.ppm.active ≠ activeOf x ∧
      (s.ppm.active ≠ activeOf (otherSupply x) ∨ (x = .battery ↔ s.batteryFirst = true))
    let reach : List Part := [.fnu, .trc, .mbr, .msq, .snd, .smk, .lmp, .ppm]
    (∀ volts : BitVec 12, level ≤ volts.toNat →
      exec (.presenceLost ⟨x, volts⟩) s = .next (fnuSettle s) ∧
      (v.present = true →
        exec (.presenceGained ⟨x, volts⟩) s = .next (fnuSettle (setSupply s x { v with voltage := volts }))) ∧
      (v.present = false →
        exec (.presenceGained ⟨x, volts⟩) s =
          .next (fnuSettle (powerEnd (setSupply s x
            (if v.qualification = .absent then
               { v with voltage := volts, present := true, qualification := .qualifying, timer := some wait }
             else { v with voltage := volts, present := true })))))) ∧
    (∀ volts : BitVec 12, volts.toNat < level →
      exec (.presenceGained ⟨x, volts⟩) s = .next (fnuSettle s) ∧
      (v.present = false →
        exec (.presenceLost ⟨x, volts⟩) s = .next (fnuSettle (setSupply s x { v with voltage := volts }))) ∧
      (v.present = true → v.qualification ≠ .qualified ∨ s.ppm.active ≠ activeOf x →
        exec (.presenceLost ⟨x, volts⟩) s =
          .next (fnuSettle (powerEnd (setSupply s x
            { v with voltage := volts, present := false, qualification := .absent, timer := none }))))) ∧
    (∀ volts : BitVec 12, volts.toNat < level → v.present = true → v.qualification = .qualified →
      s.ppm.active = activeOf x →
      ∃ t, exec (.presenceLost ⟨x, volts⟩) s = .next t ∧ SameBut reach s t ∧
        supplyOf t.ppm x = { voltage := volts, present := false, qualification := .absent, timer := none,
                             fastReturn := v.fastReturn || s.msq.slot = .empty } ∧
        (SequencerSafe s →
          t.msq.slot =
            if s.msq.slot = .empty then
              (if s.msq.converting.map (fun c => c.source) = some .gap then .waiting ⟨supplyChannel x, .ppm, true⟩
               else .converting ⟨supplyChannel x, .ppm, true⟩)
            else s.msq.slot) ∧
        supplyOf t.ppm (otherSupply x) = other ∧ t.ppm.overTimer = none ∧ t.ppm.underTimer = none ∧
        (other.qualification = .qualified → t.ppm.active = activeOf (otherSupply x) ∧ t.ppm.power = .normal) ∧
        (other.qualification ≠ .qualified → s.ppm.power = .normal →
          t.ppm.active = .buffer ∧ t.ppm.power = .coast ∧ t.ppm.coastTimer = some (100000 * s.coastLimit) ∧
            t.ppm.bufferTimer = some 5000 ∧ ∃ u, t = fnuSettle u ∧ Announced s u .coast)) ∧
    (v.timer = none ∨ v.qualification ≠ .qualifying →
      exec (.qualificationTimerExpiry x) s = .next (fnuSettle s)) ∧
    (v.timer ≠ none → v.qualification = .qualifying →
      ∃ t, exec (.qualificationTimerExpiry x) s = .next t ∧ SameBut reach s t ∧
        supplyOf t.ppm x = { v with qualification := .qualified, timer := none } ∧
        supplyOf t.ppm (otherSupply x) = other ∧
        t.ppm.active = (if wins then activeOf x else s.ppm.active) ∧
        t.ppm.power = (if wins then .normal else s.ppm.power) ∧
        (wins → s.ppm.power ≠ .normal → ∃ u, t = fnuSettle u ∧ Announced s u .normal)) ∧
    (∀ code : BitVec 12, s.msq.converting = some ⟨supplyChannel x, .inject, .ppm, false⟩ →
      ∃ t, exec (.conversionComplete code) s = .next t ∧ SameBut reach s t ∧
        supplyOf t.ppm (otherSupply x) = other ∧
        (level ≤ code.toNat → v.qualification = .qualifying →
          supplyOf t.ppm x = { v with qualification := .qualified, timer := none, fastReturn := false } ∧
            t.ppm.active = (if wins then activeOf x else s.ppm.active) ∧
            t.ppm.power = if wins then .normal else s.ppm.power) ∧
        (code.toNat < level ∨ v.qualification ≠ .qualifying →
          supplyOf t.ppm x = { v with fastReturn := false } ∧ t.ppm.active = s.ppm.active ∧
            t.ppm.power = s.ppm.power))

/-- R186 to R188, R96 and R185: the coast timer, with the announcement of HOLD, the buffer request timer, the over timer and the
under timer expire. That a stopped timer does nothing at PPM is the model's guard (notes/assumptions/2), the order of the
announcement and the caps its choice (notes/assumptions/13), and so is what a stopped voice holds (notes/assumptions/15).
-/
def Obligations.PowerTimersExpire : Prop :=
  ∀ s : State, running s = true →
    (s.ppm.coastTimer = none ∨ s.ppm.power ≠ .coast → exec .coastTimerExpiry s = .next (fnuSettle s)) ∧
    (s.ppm.coastTimer ≠ none → s.ppm.power = .coast →
      ∃ t, exec .coastTimerExpiry s = .next t ∧ SameBut [.fnu, .trc, .mbr, .msq, .snd, .smk, .lmp, .ppm] s t ∧
        t.ppm = { s.ppm with power := .hold, coastTimer := none, dcap := 0, hmax := 0, soundCap := 0 } ∧
        t.trc.state = .suspended ∧ t.trc.ramp = 0 ∧ t.trc.duty = 0 ∧ t.trc.armed = s.trc.armed ∧
        t.trc.step = s.trc.step ∧ t.trc.stated = s.trc.stated ∧
        (DemandSafe s → BridgeSafe s → t.mbr.bridge = .off ∧ t.mbr.applied = 0) ∧ t.snd.power = .hold ∧
        t.smk.power = .hold ∧ t.lmp.power = .hold ∧ ∃ u, t = fnuSettle u ∧ Announced s u .hold) ∧
    exec .bufferRequestTimerExpiry s =
      .next (fnuSettle (if s.ppm.bufferTimer = none then s
        else powerEnd ((s.setPpm { s.ppm with bufferTimer := some 5000 }).setMsq
          (queueRequest s.msq ⟨.bufferV, .ppm⟩)))) ∧
    exec .overTimerExpiry s =
      .next (fnuSettle (if s.ppm.overTimer = none then s
        else powerEnd (s.setPpm { s.ppm with shed := if s.ppm.shed < 3 then s.ppm.shed + 1 else s.ppm.shed,
                                             overTimer := some 100000 }))) ∧
    exec .underTimerExpiry s =
      .next (fnuSettle (if s.ppm.underTimer = none then s
        else powerEnd (s.setPpm { s.ppm with
          shed := if s.ppm.shed = 0 ∨ s.ppm.hot = true ∧ s.ppm.shed ≤ 2 then s.ppm.shed else s.ppm.shed - 1,
          underTimer := some 1000000 })))

/-- R186 to R188: what a scanned BUFFER_V, SUPPLY_I or BOARD_T code does at PPM, and a BUFFER_V code that PPM has asked for
(R186). R189 and Table 11-2: the caps at the end of every event at PPM. The order of the announcement of HOLD and the caps
is the model's choice (notes/assumptions/13), and so is what a voice that it stops holds (notes/assumptions/15). -/
def Obligations.ReadingsAndCaps : Prop :=
  let dutyCap (s : State) (power : PowerState) (shed : Nat) : Nat :=
    let d := if shed ≤ 1 then 1023 else if shed = 2 then 767 else 511
    match power with | .normal => d | .coast => min d s.coastCap | _ => 0
  let heaterCap (s : State) (power : PowerState) (shed : Nat) : Nat :=
    if power ≠ .normal then 0 else if shed = 0 then s.smkMax else if shed = 1 then s.smkMax / 2 else 0
  let volumeCap (s : State) (power : PowerState) (shed : Nat) : Nat :=
    let v := if shed ≤ 2 then 255 else 128
    match power with | .normal => v | .coast => min v s.coastVol | _ => 0
  (∀ (s : State) (c : Channel) (code : BitVec 12), running s = true →
    s.msq.converting = some ⟨c, .scan, .scan, false⟩ ∨
      c = .bufferV ∧ s.msq.converting = some ⟨.bufferV, .queue, .ppm, false⟩ →
    let r := code.toNat
    let limit := if s.ppm.active = .battery then s.battLimit else s.trackLimit
    let works := c = .supplyI ∧ s.ppm.power = .normal
    let hot := if c = .boardT then decide (s.thermHi ≤ r) else s.ppm.hot
    let holds := c = .bufferV ∧ s.ppm.power = .coast ∧ r ≤ s.holdLevel
    let heard := c = .trackV ∨ c = .batteryV ∨ c = .bufferV ∨ c = .supplyI ∨ c = .boardT
    let power : PowerState := if holds then .hold else s.ppm.power
    let shed := if c = .boardT ∧ s.ppm.power = .normal ∧ s.thermHi ≤ r then max 2 s.ppm.shed else s.ppm.shed
    ∃ t, exec (.conversionComplete code) s = .next t ∧
      SameBut [.fnu, .trc, .mbr, .msq, .snd, .smk, .lmp, .ppm] s t ∧
      t.ppm = { s.ppm with
        power := power
        coastTimer := if holds then none else s.ppm.coastTimer
        hot := hot
        shed := shed
        overTimer := if works then (if limit < r then some (s.ppm.overTimer.getD 100000) else none)
                     else s.ppm.overTimer
        underTimer := if works then (if 10 * r < 9 * limit then some (s.ppm.underTimer.getD 1000000) else none)
                      else s.ppm.underTimer
        dcap := if heard then dutyCap s power shed else s.ppm.dcap
        hmax := if heard then heaterCap s power shed else s.ppm.hmax
        soundCap := if heard then volumeCap s power shed else s.ppm.soundCap } ∧
      (holds → ∃ u, t = fnuSettle u ∧ Announced s u .hold)) ∧
  (∀ s : State,
    let t := powerEnd s
    let dcap := dutyCap s s.ppm.power s.ppm.shed
    let hmax := heaterCap s s.ppm.power s.ppm.shed
    let soundCap := volumeCap s s.ppm.power s.ppm.shed
    t.ppm = { s.ppm with dcap := dcap, hmax := hmax, soundCap := soundCap } ∧
      SameBut [.fnu, .trc, .mbr, .msq, .snd, .smk, .ppm] s t ∧
      (s.ppm.dcap = dcap → s.ppm.hmax = hmax → s.ppm.soundCap = soundCap → t = s) ∧
      t.trc.dcap = (if s.ppm.dcap = dcap then s.trc.dcap else dcap) ∧
      t.smk.hmax = (if s.ppm.hmax = hmax then s.smk.hmax else hmax) ∧
      t.snd.cap = if s.ppm.soundCap = soundCap then s.snd.cap else soundCap)

/-- R170 to R172, R152, R159, R179, R145 and Tables 8 to 10: in every step the cam, the sound engine, the sample memory, the
smoke unit and the lamps keep their laws: among them, that the heater is off unless the unit regulates on normal power
below shed level 2, and that no lamp shows in INIT and HOLD. -/
def Obligations.OutputsStaySound : Prop :=
  ∀ s t : State, step s = .next t →
    (ActiveSafe s → RangeSafe s → CamSafe s → CamSafe t) ∧ (PoolSafe s → PoolSafe t) ∧ (EngineSafe s → EngineSafe t) ∧
      (SampleSafe s → SampleSafe t) ∧ (SmokeSafe s → SmokeSafe t) ∧
      (HeaterSafe s → CapsSafe s → HeaterSafe t ∧ CapsSafe t) ∧ (ActiveSafe s → LampSafe s → LampSafe t)

/-- R182, R183, R185 to R188 and R191: in every step the active source and the power state agree, each comparator reads its
source's voltage against the settings in force, the sources' timers run exactly while they qualify, and a part in reset
holds every block in its reset state and so every actuator off. That a voltage at the level counts as present, that the
comparators read on in reset, and that the blocks take their reset values at the taking, are the model's
(notes/assumptions/20, 4, 14). -/
def Obligations.PowerAndResetStaySound : Prop :=
  ∀ s t : State, step s = .next t →
    (PowerSafe s → PowerSafe t) ∧ (SupplySafe s → SupplySafe t) ∧ (ResetSafe s → ResetSafe t)

/-! ### Resets -/

/-- R33, R54, R148, R190 and R191: the resets are taken, a restore completes, and the reset is released; an
unconfirmed RESET is refused. What is replaced at the release, and that the comparators' readings stay, is the model's
(notes/assumptions/4, 14); the interrupted bits are free (notes/assumptions/5). That a completion with no restore in
progress and a release with no reset held change nothing is the model's guard (notes/assumptions/2), and that a voltage at
the level is found present its choice (notes/assumptions/20). That an image being written keeps its old bytes and check word
under its mark is the model's reading (notes/assumptions/11). -/
def Obligations.ResetsAreTakenAndReleased : Prop :=
  (∀ (s : State) (w : Fin 6), memoryWf s.samples = true →
    ∃ t u, exec (.powerOnReset w) s = .next t ∧ ResetTaken s w (.held .powerOn) t ∧
      exec (.brownoutReset w) s = .next u ∧ ResetTaken s w (.held .brownout) u) ∧
  (∀ (s : State) (f : Frame) (rest : List Frame) (via : Via), memoryWf s.samples = true → HandedOn s f rest via →
    frameKind f = 12 →
    let confirmed := word16At (framePayload f) 0 = s.primaryAddress
    let refused := offerReply (frameTaken s f rest) (resultFrame s.primaryAddress 12 .badConfirm 0)
    (byteAt (framePayload f) 2 = 0 →
      (confirmed → ∃ t, exec .resetNormal s = .next t ∧ ResetTaken s 0 (.held .command) t) ∧
      (¬confirmed → exec .resetNormal s = .next refused)) ∧
    (byteAt (framePayload f) 2 = 1 →
      (confirmed → ∃ t, exec .resetFactory s = .next t ∧ ResetTaken s 0 .restoring t) ∧
      (¬confirmed → exec .resetFactory s = .next refused))) ∧
  (∀ s : State,
    (s.ppm.phase = .restoring →
      exec .factoryRestoreComplete s =
        .next ((s.setStore defaultStore).setPpm { s.ppm with phase := .held .factory })) ∧
    (s.ppm.phase ≠ .restoring → exec .factoryRestoreComplete s = .next s) ∧
    ((∀ k, s.ppm.phase ≠ .held k) → exec .resetRelease s = .next s) ∧
    ∀ k, s.ppm.phase = .held k →
      ∃ t, exec .resetRelease s = .next t ∧
      let level (x : Supply) : Nat := match x with | .track => 16 * t.trackMin | .battery => 16 * t.battMin
      let found (x : Supply) : SupplyState :=
        let volts := (supplyOf s.ppm x).voltage
        if level x ≤ volts.toNat then
          { voltage := volts, present := true, qualification := .qualifying, fastReturn := false,
            timer := some (match x with | .track => 50000 | .battery => 20000) }
        else { voltage := volts, present := false, qualification := .absent, timer := none, fastReturn := false }
      t = { s with
        cli := cliReset, dsp := dspReset, tbs := tbsReset t.tbs.active t.tbs.defaulted, fnu := fnuReset
        trc := { trcReset with state := .suspended }, mbr := mbrReset
        msq := { msqReset with scanTimer := some (1000 * t.scanPeriod) }
        cam := camReset, snd := sndReset, smk := smkReset, lmp := lmpReset
        ppm := { ppmReset s.ppm.track s.ppm.battery k .running with
                 track := found .track, battery := found .battery } } ∧
      (∀ x ∈ tableIds,
        tableGet t.tbs.active x = if imagePasses x (tableGet s.store x) then (tableGet s.store x).bytes
                                  else defaultTable x) ∧
      (t.tbs.defaulted = true ↔ ∃ x ∈ tableIds, imagePasses x (tableGet s.store x) = false) ∧
      ∀ x m, imagePasses x m = true ↔
        m.mark = false ∧ sumBytes m.bytes % 65536 = m.check ∧ contentValid x m.bytes = true)

/-- Every law that the steps keep holds right after reset. The store's content, the sample memory's and the absence of the
supplies there are the model's choice (notes/assumptions/4). -/
def Obligations.EveryLawHoldsAtReset : Prop :=
  let s := State.reset
  LinkSafe s ∧ FramesSafe s ∧ ActiveSafe s ∧ StoreSafe s ∧ EditSafe s ∧ LatchSafe s ∧ DutySafe s ∧ RangeSafe s ∧
    DemandSafe s ∧ BridgeSafe s ∧ GapSafe s ∧ AppliedSafe s ∧ SequencerSafe s ∧ BemfSafe s ∧ CamSafe s ∧ PoolSafe s ∧
    EngineSafe s ∧ SampleSafe s ∧ SenseSafe s ∧ HeaterSafe s ∧ CapsSafe s ∧ SmokeSafe s ∧ LampSafe s ∧ MapSafe s ∧ DeliveredSafe s ∧
    CopiesSafe s ∧ PowerSafe s ∧ SupplySafe s ∧ ResetSafe s
end

