-- ==== Sys2Proof/Laws/State.lean ====
section
/-!
SUPPORT. One lemma for each field after each update of the state.
-/
namespace Sys2Proof.Laws

open Sys2Proof.Machine

@[simp] theorem setCli_cli (s : State) (x : Cli) : (s.setCli x).cli = x := rfl
@[simp] theorem setCli_dsp (s : State) (x : Cli) : (s.setCli x).dsp = s.dsp := rfl
@[simp] theorem setCli_tbs (s : State) (x : Cli) : (s.setCli x).tbs = s.tbs := rfl
@[simp] theorem setCli_fnu (s : State) (x : Cli) : (s.setCli x).fnu = s.fnu := rfl
@[simp] theorem setCli_trc (s : State) (x : Cli) : (s.setCli x).trc = s.trc := rfl
@[simp] theorem setCli_mbr (s : State) (x : Cli) : (s.setCli x).mbr = s.mbr := rfl
@[simp] theorem setCli_msq (s : State) (x : Cli) : (s.setCli x).msq = s.msq := rfl
@[simp] theorem setCli_cam (s : State) (x : Cli) : (s.setCli x).cam = s.cam := rfl
@[simp] theorem setCli_snd (s : State) (x : Cli) : (s.setCli x).snd = s.snd := rfl
@[simp] theorem setCli_smk (s : State) (x : Cli) : (s.setCli x).smk = s.smk := rfl
@[simp] theorem setCli_lmp (s : State) (x : Cli) : (s.setCli x).lmp = s.lmp := rfl
@[simp] theorem setCli_ppm (s : State) (x : Cli) : (s.setCli x).ppm = s.ppm := rfl
@[simp] theorem setCli_store (s : State) (x : Cli) : (s.setCli x).store = s.store := rfl
@[simp] theorem setCli_samples (s : State) (x : Cli) : (s.setCli x).samples = s.samples := rfl
@[simp] theorem setCli_free (s : State) (x : Cli) : (s.setCli x).free = s.free := rfl
@[simp] theorem setCli_pending (s : State) (x : Cli) : (s.setCli x).pending = s.pending := rfl
@[simp] theorem setCli_twice (s : State) (x y : Cli) : (s.setCli x).setCli y = s.setCli y := rfl

@[simp] theorem setDsp_cli (s : State) (x : Dsp) : (s.setDsp x).cli = s.cli := rfl
@[simp] theorem setDsp_dsp (s : State) (x : Dsp) : (s.setDsp x).dsp = x := rfl
@[simp] theorem setDsp_tbs (s : State) (x : Dsp) : (s.setDsp x).tbs = s.tbs := rfl
@[simp] theorem setDsp_fnu (s : State) (x : Dsp) : (s.setDsp x).fnu = s.fnu := rfl
@[simp] theorem setDsp_trc (s : State) (x : Dsp) : (s.setDsp x).trc = s.trc := rfl
@[simp] theorem setDsp_mbr (s : State) (x : Dsp) : (s.setDsp x).mbr = s.mbr := rfl
@[simp] theorem setDsp_msq (s : State) (x : Dsp) : (s.setDsp x).msq = s.msq := rfl
@[simp] theorem setDsp_cam (s : State) (x : Dsp) : (s.setDsp x).cam = s.cam := rfl
@[simp] theorem setDsp_snd (s : State) (x : Dsp) : (s.setDsp x).snd = s.snd := rfl
@[simp] theorem setDsp_smk (s : State) (x : Dsp) : (s.setDsp x).smk = s.smk := rfl
@[simp] theorem setDsp_lmp (s : State) (x : Dsp) : (s.setDsp x).lmp = s.lmp := rfl
@[simp] theorem setDsp_ppm (s : State) (x : Dsp) : (s.setDsp x).ppm = s.ppm := rfl
@[simp] theorem setDsp_store (s : State) (x : Dsp) : (s.setDsp x).store = s.store := rfl
@[simp] theorem setDsp_samples (s : State) (x : Dsp) : (s.setDsp x).samples = s.samples := rfl
@[simp] theorem setDsp_free (s : State) (x : Dsp) : (s.setDsp x).free = s.free := rfl
@[simp] theorem setDsp_pending (s : State) (x : Dsp) : (s.setDsp x).pending = s.pending := rfl
@[simp] theorem setDsp_twice (s : State) (x y : Dsp) : (s.setDsp x).setDsp y = s.setDsp y := rfl

@[simp] theorem setTbs_cli (s : State) (x : Tbs) : (s.setTbs x).cli = s.cli := rfl
@[simp] theorem setTbs_dsp (s : State) (x : Tbs) : (s.setTbs x).dsp = s.dsp := rfl
@[simp] theorem setTbs_tbs (s : State) (x : Tbs) : (s.setTbs x).tbs = x := rfl
@[simp] theorem setTbs_fnu (s : State) (x : Tbs) : (s.setTbs x).fnu = s.fnu := rfl
@[simp] theorem setTbs_trc (s : State) (x : Tbs) : (s.setTbs x).trc = s.trc := rfl
@[simp] theorem setTbs_mbr (s : State) (x : Tbs) : (s.setTbs x).mbr = s.mbr := rfl
@[simp] theorem setTbs_msq (s : State) (x : Tbs) : (s.setTbs x).msq = s.msq := rfl
@[simp] theorem setTbs_cam (s : State) (x : Tbs) : (s.setTbs x).cam = s.cam := rfl
@[simp] theorem setTbs_snd (s : State) (x : Tbs) : (s.setTbs x).snd = s.snd := rfl
@[simp] theorem setTbs_smk (s : State) (x : Tbs) : (s.setTbs x).smk = s.smk := rfl
@[simp] theorem setTbs_lmp (s : State) (x : Tbs) : (s.setTbs x).lmp = s.lmp := rfl
@[simp] theorem setTbs_ppm (s : State) (x : Tbs) : (s.setTbs x).ppm = s.ppm := rfl
@[simp] theorem setTbs_store (s : State) (x : Tbs) : (s.setTbs x).store = s.store := rfl
@[simp] theorem setTbs_samples (s : State) (x : Tbs) : (s.setTbs x).samples = s.samples := rfl
@[simp] theorem setTbs_free (s : State) (x : Tbs) : (s.setTbs x).free = s.free := rfl
@[simp] theorem setTbs_pending (s : State) (x : Tbs) : (s.setTbs x).pending = s.pending := rfl
@[simp] theorem setTbs_twice (s : State) (x y : Tbs) : (s.setTbs x).setTbs y = s.setTbs y := rfl

@[simp] theorem setFnu_cli (s : State) (x : Fnu) : (s.setFnu x).cli = s.cli := rfl
@[simp] theorem setFnu_dsp (s : State) (x : Fnu) : (s.setFnu x).dsp = s.dsp := rfl
@[simp] theorem setFnu_tbs (s : State) (x : Fnu) : (s.setFnu x).tbs = s.tbs := rfl
@[simp] theorem setFnu_fnu (s : State) (x : Fnu) : (s.setFnu x).fnu = x := rfl
@[simp] theorem setFnu_trc (s : State) (x : Fnu) : (s.setFnu x).trc = s.trc := rfl
@[simp] theorem setFnu_mbr (s : State) (x : Fnu) : (s.setFnu x).mbr = s.mbr := rfl
@[simp] theorem setFnu_msq (s : State) (x : Fnu) : (s.setFnu x).msq = s.msq := rfl
@[simp] theorem setFnu_cam (s : State) (x : Fnu) : (s.setFnu x).cam = s.cam := rfl
@[simp] theorem setFnu_snd (s : State) (x : Fnu) : (s.setFnu x).snd = s.snd := rfl
@[simp] theorem setFnu_smk (s : State) (x : Fnu) : (s.setFnu x).smk = s.smk := rfl
@[simp] theorem setFnu_lmp (s : State) (x : Fnu) : (s.setFnu x).lmp = s.lmp := rfl
@[simp] theorem setFnu_ppm (s : State) (x : Fnu) : (s.setFnu x).ppm = s.ppm := rfl
@[simp] theorem setFnu_store (s : State) (x : Fnu) : (s.setFnu x).store = s.store := rfl
@[simp] theorem setFnu_samples (s : State) (x : Fnu) : (s.setFnu x).samples = s.samples := rfl
@[simp] theorem setFnu_free (s : State) (x : Fnu) : (s.setFnu x).free = s.free := rfl
@[simp] theorem setFnu_pending (s : State) (x : Fnu) : (s.setFnu x).pending = s.pending := rfl
@[simp] theorem setFnu_twice (s : State) (x y : Fnu) : (s.setFnu x).setFnu y = s.setFnu y := rfl

@[simp] theorem setTrc_cli (s : State) (x : Trc) : (s.setTrc x).cli = s.cli := rfl
@[simp] theorem setTrc_dsp (s : State) (x : Trc) : (s.setTrc x).dsp = s.dsp := rfl
@[simp] theorem setTrc_tbs (s : State) (x : Trc) : (s.setTrc x).tbs = s.tbs := rfl
@[simp] theorem setTrc_fnu (s : State) (x : Trc) : (s.setTrc x).fnu = s.fnu := rfl
@[simp] theorem setTrc_trc (s : State) (x : Trc) : (s.setTrc x).trc = x := rfl
@[simp] theorem setTrc_mbr (s : State) (x : Trc) : (s.setTrc x).mbr = s.mbr := rfl
@[simp] theorem setTrc_msq (s : State) (x : Trc) : (s.setTrc x).msq = s.msq := rfl
@[simp] theorem setTrc_cam (s : State) (x : Trc) : (s.setTrc x).cam = s.cam := rfl
@[simp] theorem setTrc_snd (s : State) (x : Trc) : (s.setTrc x).snd = s.snd := rfl
@[simp] theorem setTrc_smk (s : State) (x : Trc) : (s.setTrc x).smk = s.smk := rfl
@[simp] theorem setTrc_lmp (s : State) (x : Trc) : (s.setTrc x).lmp = s.lmp := rfl
@[simp] theorem setTrc_ppm (s : State) (x : Trc) : (s.setTrc x).ppm = s.ppm := rfl
@[simp] theorem setTrc_store (s : State) (x : Trc) : (s.setTrc x).store = s.store := rfl
@[simp] theorem setTrc_samples (s : State) (x : Trc) : (s.setTrc x).samples = s.samples := rfl
@[simp] theorem setTrc_free (s : State) (x : Trc) : (s.setTrc x).free = s.free := rfl
@[simp] theorem setTrc_pending (s : State) (x : Trc) : (s.setTrc x).pending = s.pending := rfl
@[simp] theorem setTrc_twice (s : State) (x y : Trc) : (s.setTrc x).setTrc y = s.setTrc y := rfl

@[simp] theorem setMbr_cli (s : State) (x : Mbr) : (s.setMbr x).cli = s.cli := rfl
@[simp] theorem setMbr_dsp (s : State) (x : Mbr) : (s.setMbr x).dsp = s.dsp := rfl
@[simp] theorem setMbr_tbs (s : State) (x : Mbr) : (s.setMbr x).tbs = s.tbs := rfl
@[simp] theorem setMbr_fnu (s : State) (x : Mbr) : (s.setMbr x).fnu = s.fnu := rfl
@[simp] theorem setMbr_trc (s : State) (x : Mbr) : (s.setMbr x).trc = s.trc := rfl
@[simp] theorem setMbr_mbr (s : State) (x : Mbr) : (s.setMbr x).mbr = x := rfl
@[simp] theorem setMbr_msq (s : State) (x : Mbr) : (s.setMbr x).msq = s.msq := rfl
@[simp] theorem setMbr_cam (s : State) (x : Mbr) : (s.setMbr x).cam = s.cam := rfl
@[simp] theorem setMbr_snd (s : State) (x : Mbr) : (s.setMbr x).snd = s.snd := rfl
@[simp] theorem setMbr_smk (s : State) (x : Mbr) : (s.setMbr x).smk = s.smk := rfl
@[simp] theorem setMbr_lmp (s : State) (x : Mbr) : (s.setMbr x).lmp = s.lmp := rfl
@[simp] theorem setMbr_ppm (s : State) (x : Mbr) : (s.setMbr x).ppm = s.ppm := rfl
@[simp] theorem setMbr_store (s : State) (x : Mbr) : (s.setMbr x).store = s.store := rfl
@[simp] theorem setMbr_samples (s : State) (x : Mbr) : (s.setMbr x).samples = s.samples := rfl
@[simp] theorem setMbr_free (s : State) (x : Mbr) : (s.setMbr x).free = s.free := rfl
@[simp] theorem setMbr_pending (s : State) (x : Mbr) : (s.setMbr x).pending = s.pending := rfl
@[simp] theorem setMbr_twice (s : State) (x y : Mbr) : (s.setMbr x).setMbr y = s.setMbr y := rfl

@[simp] theorem setMsq_cli (s : State) (x : Msq) : (s.setMsq x).cli = s.cli := rfl
@[simp] theorem setMsq_dsp (s : State) (x : Msq) : (s.setMsq x).dsp = s.dsp := rfl
@[simp] theorem setMsq_tbs (s : State) (x : Msq) : (s.setMsq x).tbs = s.tbs := rfl
@[simp] theorem setMsq_fnu (s : State) (x : Msq) : (s.setMsq x).fnu = s.fnu := rfl
@[simp] theorem setMsq_trc (s : State) (x : Msq) : (s.setMsq x).trc = s.trc := rfl
@[simp] theorem setMsq_mbr (s : State) (x : Msq) : (s.setMsq x).mbr = s.mbr := rfl
@[simp] theorem setMsq_msq (s : State) (x : Msq) : (s.setMsq x).msq = x := rfl
@[simp] theorem setMsq_cam (s : State) (x : Msq) : (s.setMsq x).cam = s.cam := rfl
@[simp] theorem setMsq_snd (s : State) (x : Msq) : (s.setMsq x).snd = s.snd := rfl
@[simp] theorem setMsq_smk (s : State) (x : Msq) : (s.setMsq x).smk = s.smk := rfl
@[simp] theorem setMsq_lmp (s : State) (x : Msq) : (s.setMsq x).lmp = s.lmp := rfl
@[simp] theorem setMsq_ppm (s : State) (x : Msq) : (s.setMsq x).ppm = s.ppm := rfl
@[simp] theorem setMsq_store (s : State) (x : Msq) : (s.setMsq x).store = s.store := rfl
@[simp] theorem setMsq_samples (s : State) (x : Msq) : (s.setMsq x).samples = s.samples := rfl
@[simp] theorem setMsq_free (s : State) (x : Msq) : (s.setMsq x).free = s.free := rfl
@[simp] theorem setMsq_pending (s : State) (x : Msq) : (s.setMsq x).pending = s.pending := rfl
@[simp] theorem setMsq_twice (s : State) (x y : Msq) : (s.setMsq x).setMsq y = s.setMsq y := rfl

@[simp] theorem setCam_cli (s : State) (x : Cam) : (s.setCam x).cli = s.cli := rfl
@[simp] theorem setCam_dsp (s : State) (x : Cam) : (s.setCam x).dsp = s.dsp := rfl
@[simp] theorem setCam_tbs (s : State) (x : Cam) : (s.setCam x).tbs = s.tbs := rfl
@[simp] theorem setCam_fnu (s : State) (x : Cam) : (s.setCam x).fnu = s.fnu := rfl
@[simp] theorem setCam_trc (s : State) (x : Cam) : (s.setCam x).trc = s.trc := rfl
@[simp] theorem setCam_mbr (s : State) (x : Cam) : (s.setCam x).mbr = s.mbr := rfl
@[simp] theorem setCam_msq (s : State) (x : Cam) : (s.setCam x).msq = s.msq := rfl
@[simp] theorem setCam_cam (s : State) (x : Cam) : (s.setCam x).cam = x := rfl
@[simp] theorem setCam_snd (s : State) (x : Cam) : (s.setCam x).snd = s.snd := rfl
@[simp] theorem setCam_smk (s : State) (x : Cam) : (s.setCam x).smk = s.smk := rfl
@[simp] theorem setCam_lmp (s : State) (x : Cam) : (s.setCam x).lmp = s.lmp := rfl
@[simp] theorem setCam_ppm (s : State) (x : Cam) : (s.setCam x).ppm = s.ppm := rfl
@[simp] theorem setCam_store (s : State) (x : Cam) : (s.setCam x).store = s.store := rfl
@[simp] theorem setCam_samples (s : State) (x : Cam) : (s.setCam x).samples = s.samples := rfl
@[simp] theorem setCam_free (s : State) (x : Cam) : (s.setCam x).free = s.free := rfl
@[simp] theorem setCam_pending (s : State) (x : Cam) : (s.setCam x).pending = s.pending := rfl
@[simp] theorem setCam_twice (s : State) (x y : Cam) : (s.setCam x).setCam y = s.setCam y := rfl

@[simp] theorem setSnd_cli (s : State) (x : Snd) : (s.setSnd x).cli = s.cli := rfl
@[simp] theorem setSnd_dsp (s : State) (x : Snd) : (s.setSnd x).dsp = s.dsp := rfl
@[simp] theorem setSnd_tbs (s : State) (x : Snd) : (s.setSnd x).tbs = s.tbs := rfl
@[simp] theorem setSnd_fnu (s : State) (x : Snd) : (s.setSnd x).fnu = s.fnu := rfl
@[simp] theorem setSnd_trc (s : State) (x : Snd) : (s.setSnd x).trc = s.trc := rfl
@[simp] theorem setSnd_mbr (s : State) (x : Snd) : (s.setSnd x).mbr = s.mbr := rfl
@[simp] theorem setSnd_msq (s : State) (x : Snd) : (s.setSnd x).msq = s.msq := rfl
@[simp] theorem setSnd_cam (s : State) (x : Snd) : (s.setSnd x).cam = s.cam := rfl
@[simp] theorem setSnd_snd (s : State) (x : Snd) : (s.setSnd x).snd = x := rfl
@[simp] theorem setSnd_smk (s : State) (x : Snd) : (s.setSnd x).smk = s.smk := rfl
@[simp] theorem setSnd_lmp (s : State) (x : Snd) : (s.setSnd x).lmp = s.lmp := rfl
@[simp] theorem setSnd_ppm (s : State) (x : Snd) : (s.setSnd x).ppm = s.ppm := rfl
@[simp] theorem setSnd_store (s : State) (x : Snd) : (s.setSnd x).store = s.store := rfl
@[simp] theorem setSnd_samples (s : State) (x : Snd) : (s.setSnd x).samples = s.samples := rfl
@[simp] theorem setSnd_free (s : State) (x : Snd) : (s.setSnd x).free = s.free := rfl
@[simp] theorem setSnd_pending (s : State) (x : Snd) : (s.setSnd x).pending = s.pending := rfl
@[simp] theorem setSnd_twice (s : State) (x y : Snd) : (s.setSnd x).setSnd y = s.setSnd y := rfl

@[simp] theorem setSmk_cli (s : State) (x : Smk) : (s.setSmk x).cli = s.cli := rfl
@[simp] theorem setSmk_dsp (s : State) (x : Smk) : (s.setSmk x).dsp = s.dsp := rfl
@[simp] theorem setSmk_tbs (s : State) (x : Smk) : (s.setSmk x).tbs = s.tbs := rfl
@[simp] theorem setSmk_fnu (s : State) (x : Smk) : (s.setSmk x).fnu = s.fnu := rfl
@[simp] theorem setSmk_trc (s : State) (x : Smk) : (s.setSmk x).trc = s.trc := rfl
@[simp] theorem setSmk_mbr (s : State) (x : Smk) : (s.setSmk x).mbr = s.mbr := rfl
@[simp] theorem setSmk_msq (s : State) (x : Smk) : (s.setSmk x).msq = s.msq := rfl
@[simp] theorem setSmk_cam (s : State) (x : Smk) : (s.setSmk x).cam = s.cam := rfl
@[simp] theorem setSmk_snd (s : State) (x : Smk) : (s.setSmk x).snd = s.snd := rfl
@[simp] theorem setSmk_smk (s : State) (x : Smk) : (s.setSmk x).smk = x := rfl
@[simp] theorem setSmk_lmp (s : State) (x : Smk) : (s.setSmk x).lmp = s.lmp := rfl
@[simp] theorem setSmk_ppm (s : State) (x : Smk) : (s.setSmk x).ppm = s.ppm := rfl
@[simp] theorem setSmk_store (s : State) (x : Smk) : (s.setSmk x).store = s.store := rfl
@[simp] theorem setSmk_samples (s : State) (x : Smk) : (s.setSmk x).samples = s.samples := rfl
@[simp] theorem setSmk_free (s : State) (x : Smk) : (s.setSmk x).free = s.free := rfl
@[simp] theorem setSmk_pending (s : State) (x : Smk) : (s.setSmk x).pending = s.pending := rfl
@[simp] theorem setSmk_twice (s : State) (x y : Smk) : (s.setSmk x).setSmk y = s.setSmk y := rfl

@[simp] theorem setLmp_cli (s : State) (x : Lmp) : (s.setLmp x).cli = s.cli := rfl
@[simp] theorem setLmp_dsp (s : State) (x : Lmp) : (s.setLmp x).dsp = s.dsp := rfl
@[simp] theorem setLmp_tbs (s : State) (x : Lmp) : (s.setLmp x).tbs = s.tbs := rfl
@[simp] theorem setLmp_fnu (s : State) (x : Lmp) : (s.setLmp x).fnu = s.fnu := rfl
@[simp] theorem setLmp_trc (s : State) (x : Lmp) : (s.setLmp x).trc = s.trc := rfl
@[simp] theorem setLmp_mbr (s : State) (x : Lmp) : (s.setLmp x).mbr = s.mbr := rfl
@[simp] theorem setLmp_msq (s : State) (x : Lmp) : (s.setLmp x).msq = s.msq := rfl
@[simp] theorem setLmp_cam (s : State) (x : Lmp) : (s.setLmp x).cam = s.cam := rfl
@[simp] theorem setLmp_snd (s : State) (x : Lmp) : (s.setLmp x).snd = s.snd := rfl
@[simp] theorem setLmp_smk (s : State) (x : Lmp) : (s.setLmp x).smk = s.smk := rfl
@[simp] theorem setLmp_lmp (s : State) (x : Lmp) : (s.setLmp x).lmp = x := rfl
@[simp] theorem setLmp_ppm (s : State) (x : Lmp) : (s.setLmp x).ppm = s.ppm := rfl
@[simp] theorem setLmp_store (s : State) (x : Lmp) : (s.setLmp x).store = s.store := rfl
@[simp] theorem setLmp_samples (s : State) (x : Lmp) : (s.setLmp x).samples = s.samples := rfl
@[simp] theorem setLmp_free (s : State) (x : Lmp) : (s.setLmp x).free = s.free := rfl
@[simp] theorem setLmp_pending (s : State) (x : Lmp) : (s.setLmp x).pending = s.pending := rfl
@[simp] theorem setLmp_twice (s : State) (x y : Lmp) : (s.setLmp x).setLmp y = s.setLmp y := rfl

@[simp] theorem setPpm_cli (s : State) (x : Ppm) : (s.setPpm x).cli = s.cli := rfl
@[simp] theorem setPpm_dsp (s : State) (x : Ppm) : (s.setPpm x).dsp = s.dsp := rfl
@[simp] theorem setPpm_tbs (s : State) (x : Ppm) : (s.setPpm x).tbs = s.tbs := rfl
@[simp] theorem setPpm_fnu (s : State) (x : Ppm) : (s.setPpm x).fnu = s.fnu := rfl
@[simp] theorem setPpm_trc (s : State) (x : Ppm) : (s.setPpm x).trc = s.trc := rfl
@[simp] theorem setPpm_mbr (s : State) (x : Ppm) : (s.setPpm x).mbr = s.mbr := rfl
@[simp] theorem setPpm_msq (s : State) (x : Ppm) : (s.setPpm x).msq = s.msq := rfl
@[simp] theorem setPpm_cam (s : State) (x : Ppm) : (s.setPpm x).cam = s.cam := rfl
@[simp] theorem setPpm_snd (s : State) (x : Ppm) : (s.setPpm x).snd = s.snd := rfl
@[simp] theorem setPpm_smk (s : State) (x : Ppm) : (s.setPpm x).smk = s.smk := rfl
@[simp] theorem setPpm_lmp (s : State) (x : Ppm) : (s.setPpm x).lmp = s.lmp := rfl
@[simp] theorem setPpm_ppm (s : State) (x : Ppm) : (s.setPpm x).ppm = x := rfl
@[simp] theorem setPpm_store (s : State) (x : Ppm) : (s.setPpm x).store = s.store := rfl
@[simp] theorem setPpm_samples (s : State) (x : Ppm) : (s.setPpm x).samples = s.samples := rfl
@[simp] theorem setPpm_free (s : State) (x : Ppm) : (s.setPpm x).free = s.free := rfl
@[simp] theorem setPpm_pending (s : State) (x : Ppm) : (s.setPpm x).pending = s.pending := rfl
@[simp] theorem setPpm_twice (s : State) (x y : Ppm) : (s.setPpm x).setPpm y = s.setPpm y := rfl

@[simp] theorem setStore_cli (s : State) (x : PerTable Image) : (s.setStore x).cli = s.cli := rfl
@[simp] theorem setStore_dsp (s : State) (x : PerTable Image) : (s.setStore x).dsp = s.dsp := rfl
@[simp] theorem setStore_tbs (s : State) (x : PerTable Image) : (s.setStore x).tbs = s.tbs := rfl
@[simp] theorem setStore_fnu (s : State) (x : PerTable Image) : (s.setStore x).fnu = s.fnu := rfl
@[simp] theorem setStore_trc (s : State) (x : PerTable Image) : (s.setStore x).trc = s.trc := rfl
@[simp] theorem setStore_mbr (s : State) (x : PerTable Image) : (s.setStore x).mbr = s.mbr := rfl
@[simp] theorem setStore_msq (s : State) (x : PerTable Image) : (s.setStore x).msq = s.msq := rfl
@[simp] theorem setStore_cam (s : State) (x : PerTable Image) : (s.setStore x).cam = s.cam := rfl
@[simp] theorem setStore_snd (s : State) (x : PerTable Image) : (s.setStore x).snd = s.snd := rfl
@[simp] theorem setStore_smk (s : State) (x : PerTable Image) : (s.setStore x).smk = s.smk := rfl
@[simp] theorem setStore_lmp (s : State) (x : PerTable Image) : (s.setStore x).lmp = s.lmp := rfl
@[simp] theorem setStore_ppm (s : State) (x : PerTable Image) : (s.setStore x).ppm = s.ppm := rfl
@[simp] theorem setStore_store (s : State) (x : PerTable Image) : (s.setStore x).store = x := rfl
@[simp] theorem setStore_samples (s : State) (x : PerTable Image) : (s.setStore x).samples = s.samples := rfl
@[simp] theorem setStore_free (s : State) (x : PerTable Image) : (s.setStore x).free = s.free := rfl
@[simp] theorem setStore_pending (s : State) (x : PerTable Image) : (s.setStore x).pending = s.pending := rfl
@[simp] theorem setStore_twice (s : State) (x y : PerTable Image) : (s.setStore x).setStore y = s.setStore y := rfl

@[simp] theorem setSamples_cli (s : State) (x : List Host.Cell) : (s.setSamples x).cli = s.cli := rfl
@[simp] theorem setSamples_dsp (s : State) (x : List Host.Cell) : (s.setSamples x).dsp = s.dsp := rfl
@[simp] theorem setSamples_tbs (s : State) (x : List Host.Cell) : (s.setSamples x).tbs = s.tbs := rfl
@[simp] theorem setSamples_fnu (s : State) (x : List Host.Cell) : (s.setSamples x).fnu = s.fnu := rfl
@[simp] theorem setSamples_trc (s : State) (x : List Host.Cell) : (s.setSamples x).trc = s.trc := rfl
@[simp] theorem setSamples_mbr (s : State) (x : List Host.Cell) : (s.setSamples x).mbr = s.mbr := rfl
@[simp] theorem setSamples_msq (s : State) (x : List Host.Cell) : (s.setSamples x).msq = s.msq := rfl
@[simp] theorem setSamples_cam (s : State) (x : List Host.Cell) : (s.setSamples x).cam = s.cam := rfl
@[simp] theorem setSamples_snd (s : State) (x : List Host.Cell) : (s.setSamples x).snd = s.snd := rfl
@[simp] theorem setSamples_smk (s : State) (x : List Host.Cell) : (s.setSamples x).smk = s.smk := rfl
@[simp] theorem setSamples_lmp (s : State) (x : List Host.Cell) : (s.setSamples x).lmp = s.lmp := rfl
@[simp] theorem setSamples_ppm (s : State) (x : List Host.Cell) : (s.setSamples x).ppm = s.ppm := rfl
@[simp] theorem setSamples_store (s : State) (x : List Host.Cell) : (s.setSamples x).store = s.store := rfl
@[simp] theorem setSamples_samples (s : State) (x : List Host.Cell) : (s.setSamples x).samples = x := rfl
@[simp] theorem setSamples_free (s : State) (x : List Host.Cell) : (s.setSamples x).free = s.free := rfl
@[simp] theorem setSamples_pending (s : State) (x : List Host.Cell) : (s.setSamples x).pending = s.pending := rfl
@[simp] theorem setSamples_twice (s : State) (x y : List Host.Cell) : (s.setSamples x).setSamples y = s.setSamples y := rfl

@[simp] theorem setFree_cli (s : State) (x : Nat) : (s.setFree x).cli = s.cli := rfl
@[simp] theorem setFree_dsp (s : State) (x : Nat) : (s.setFree x).dsp = s.dsp := rfl
@[simp] theorem setFree_tbs (s : State) (x : Nat) : (s.setFree x).tbs = s.tbs := rfl
@[simp] theorem setFree_fnu (s : State) (x : Nat) : (s.setFree x).fnu = s.fnu := rfl
@[simp] theorem setFree_trc (s : State) (x : Nat) : (s.setFree x).trc = s.trc := rfl
@[simp] theorem setFree_mbr (s : State) (x : Nat) : (s.setFree x).mbr = s.mbr := rfl
@[simp] theorem setFree_msq (s : State) (x : Nat) : (s.setFree x).msq = s.msq := rfl
@[simp] theorem setFree_cam (s : State) (x : Nat) : (s.setFree x).cam = s.cam := rfl
@[simp] theorem setFree_snd (s : State) (x : Nat) : (s.setFree x).snd = s.snd := rfl
@[simp] theorem setFree_smk (s : State) (x : Nat) : (s.setFree x).smk = s.smk := rfl
@[simp] theorem setFree_lmp (s : State) (x : Nat) : (s.setFree x).lmp = s.lmp := rfl
@[simp] theorem setFree_ppm (s : State) (x : Nat) : (s.setFree x).ppm = s.ppm := rfl
@[simp] theorem setFree_store (s : State) (x : Nat) : (s.setFree x).store = s.store := rfl
@[simp] theorem setFree_samples (s : State) (x : Nat) : (s.setFree x).samples = s.samples := rfl
@[simp] theorem setFree_free (s : State) (x : Nat) : (s.setFree x).free = x := rfl
@[simp] theorem setFree_pending (s : State) (x : Nat) : (s.setFree x).pending = s.pending := rfl
@[simp] theorem setFree_twice (s : State) (x y : Nat) : (s.setFree x).setFree y = s.setFree y := rfl

@[simp] theorem setPending_cli (s : State) (x : List Instr) : (s.setPending x).cli = s.cli := rfl
@[simp] theorem setPending_dsp (s : State) (x : List Instr) : (s.setPending x).dsp = s.dsp := rfl
@[simp] theorem setPending_tbs (s : State) (x : List Instr) : (s.setPending x).tbs = s.tbs := rfl
@[simp] theorem setPending_fnu (s : State) (x : List Instr) : (s.setPending x).fnu = s.fnu := rfl
@[simp] theorem setPending_trc (s : State) (x : List Instr) : (s.setPending x).trc = s.trc := rfl
@[simp] theorem setPending_mbr (s : State) (x : List Instr) : (s.setPending x).mbr = s.mbr := rfl
@[simp] theorem setPending_msq (s : State) (x : List Instr) : (s.setPending x).msq = s.msq := rfl
@[simp] theorem setPending_cam (s : State) (x : List Instr) : (s.setPending x).cam = s.cam := rfl
@[simp] theorem setPending_snd (s : State) (x : List Instr) : (s.setPending x).snd = s.snd := rfl
@[simp] theorem setPending_smk (s : State) (x : List Instr) : (s.setPending x).smk = s.smk := rfl
@[simp] theorem setPending_lmp (s : State) (x : List Instr) : (s.setPending x).lmp = s.lmp := rfl
@[simp] theorem setPending_ppm (s : State) (x : List Instr) : (s.setPending x).ppm = s.ppm := rfl
@[simp] theorem setPending_store (s : State) (x : List Instr) : (s.setPending x).store = s.store := rfl
@[simp] theorem setPending_samples (s : State) (x : List Instr) : (s.setPending x).samples = s.samples := rfl
@[simp] theorem setPending_free (s : State) (x : List Instr) : (s.setPending x).free = s.free := rfl
@[simp] theorem setPending_pending (s : State) (x : List Instr) : (s.setPending x).pending = x := rfl
@[simp] theorem setPending_twice (s : State) (x y : List Instr) : (s.setPending x).setPending y = s.setPending y := rfl

end Sys2Proof.Laws
end

