-- ==== Sys2Proof/Laws/TractionKeeps.lean ====
section
/-!
SUPPORT. One lemma an operation: what each operation of the bridge and of traction leaves as it was. Each conjunct is a rewriting rule of `simp`.
-/
namespace Sys2Proof.Machine

@[simp] theorem publish_keeps (s : State) (p : Publication) :
    (publish s p).cli = s.cli ∧ (publish s p).dsp = s.dsp ∧ (publish s p).tbs = s.tbs ∧ (publish s p).trc = s.trc ∧
    (publish s p).mbr = s.mbr ∧ (publish s p).msq = s.msq ∧ (publish s p).cam = s.cam ∧ (publish s p).snd = s.snd ∧
    (publish s p).smk = s.smk ∧ (publish s p).lmp = s.lmp ∧ (publish s p).ppm = s.ppm ∧
    (publish s p).store = s.store ∧ (publish s p).samples = s.samples ∧ (publish s p).free = s.free ∧
    (publish s p).pending = s.pending := by
  simp only [publish]
  simp

@[simp] theorem lossRestart_keeps (s : State) :
    (lossRestart s).cli = s.cli ∧ (lossRestart s).tbs = s.tbs ∧ (lossRestart s).fnu = s.fnu ∧
    (lossRestart s).trc = s.trc ∧ (lossRestart s).mbr = s.mbr ∧ (lossRestart s).msq = s.msq ∧
    (lossRestart s).cam = s.cam ∧ (lossRestart s).snd = s.snd ∧ (lossRestart s).smk = s.smk ∧
    (lossRestart s).lmp = s.lmp ∧ (lossRestart s).ppm = s.ppm ∧ (lossRestart s).store = s.store ∧
    (lossRestart s).samples = s.samples ∧ (lossRestart s).free = s.free ∧ (lossRestart s).pending = s.pending := by
  simp only [lossRestart]
  (repeat' split) <;> simp

@[simp] theorem offerReply_keeps (s : State) (f : Frame) :
    (offerReply s f).dsp = s.dsp ∧ (offerReply s f).tbs = s.tbs ∧ (offerReply s f).fnu = s.fnu ∧
    (offerReply s f).trc = s.trc ∧ (offerReply s f).mbr = s.mbr ∧ (offerReply s f).msq = s.msq ∧
    (offerReply s f).cam = s.cam ∧ (offerReply s f).snd = s.snd ∧ (offerReply s f).smk = s.smk ∧
    (offerReply s f).lmp = s.lmp ∧ (offerReply s f).ppm = s.ppm ∧ (offerReply s f).store = s.store ∧
    (offerReply s f).samples = s.samples ∧ (offerReply s f).free = s.free ∧ (offerReply s f).pending = s.pending := by
  simp only [offerReply]
  simp

@[simp] theorem startPeriod_keeps (s : State) :
    (startPeriod s).cli = s.cli ∧ (startPeriod s).dsp = s.dsp ∧ (startPeriod s).tbs = s.tbs ∧
    (startPeriod s).fnu = s.fnu ∧ (startPeriod s).trc = s.trc ∧ (startPeriod s).msq = s.msq ∧
    (startPeriod s).cam = s.cam ∧ (startPeriod s).snd = s.snd ∧ (startPeriod s).smk = s.smk ∧
    (startPeriod s).lmp = s.lmp ∧ (startPeriod s).ppm = s.ppm ∧ (startPeriod s).store = s.store ∧
    (startPeriod s).samples = s.samples ∧ (startPeriod s).free = s.free ∧ (startPeriod s).pending = s.pending := by
  simp only [startPeriod]
  simp

@[simp] theorem holdBegun_keeps (s : State) :
    (holdBegun s).cli = s.cli ∧ (holdBegun s).dsp = s.dsp ∧ (holdBegun s).tbs = s.tbs ∧
    (holdBegun s).fnu = s.fnu ∧ (holdBegun s).trc = s.trc ∧ (holdBegun s).msq = s.msq ∧
    (holdBegun s).cam = s.cam ∧ (holdBegun s).snd = s.snd ∧ (holdBegun s).smk = s.smk ∧
    (holdBegun s).lmp = s.lmp ∧ (holdBegun s).ppm = s.ppm ∧ (holdBegun s).store = s.store ∧
    (holdBegun s).samples = s.samples ∧ (holdBegun s).free = s.free ∧ (holdBegun s).pending = s.pending := by
  simp only [holdBegun]
  simp

@[simp] theorem holdReleased_keeps (s : State) :
    (holdReleased s).cli = s.cli ∧ (holdReleased s).dsp = s.dsp ∧ (holdReleased s).tbs = s.tbs ∧
    (holdReleased s).fnu = s.fnu ∧ (holdReleased s).trc = s.trc ∧ (holdReleased s).msq = s.msq ∧
    (holdReleased s).cam = s.cam ∧ (holdReleased s).snd = s.snd ∧ (holdReleased s).smk = s.smk ∧
    (holdReleased s).lmp = s.lmp ∧ (holdReleased s).ppm = s.ppm ∧ (holdReleased s).store = s.store ∧
    (holdReleased s).samples = s.samples ∧ (holdReleased s).free = s.free ∧ (holdReleased s).pending = s.pending := by
  simp only [holdReleased]
  simp

@[simp] theorem injectRaised_keeps (s : State) (r : Inject) :
    (injectRaised s r).cli = s.cli ∧ (injectRaised s r).dsp = s.dsp ∧ (injectRaised s r).tbs = s.tbs ∧
    (injectRaised s r).fnu = s.fnu ∧ (injectRaised s r).trc = s.trc ∧
    (injectRaised s r).cam = s.cam ∧ (injectRaised s r).snd = s.snd ∧ (injectRaised s r).smk = s.smk ∧
    (injectRaised s r).lmp = s.lmp ∧ (injectRaised s r).ppm = s.ppm ∧ (injectRaised s r).store = s.store ∧
    (injectRaised s r).samples = s.samples ∧ (injectRaised s r).free = s.free ∧ (injectRaised s r).pending = s.pending := by
  simp only [injectRaised]
  simp

@[simp] theorem bridgeDrive_keeps (s : State) :
    (bridgeDrive s).cli = s.cli ∧ (bridgeDrive s).dsp = s.dsp ∧ (bridgeDrive s).tbs = s.tbs ∧
    (bridgeDrive s).fnu = s.fnu ∧ (bridgeDrive s).trc = s.trc ∧ (bridgeDrive s).msq = s.msq ∧
    (bridgeDrive s).cam = s.cam ∧ (bridgeDrive s).snd = s.snd ∧ (bridgeDrive s).smk = s.smk ∧
    (bridgeDrive s).lmp = s.lmp ∧ (bridgeDrive s).ppm = s.ppm ∧ (bridgeDrive s).store = s.store ∧
    (bridgeDrive s).samples = s.samples ∧ (bridgeDrive s).free = s.free ∧ (bridgeDrive s).pending = s.pending := by
  simp only [bridgeDrive]
  simp

@[simp] theorem bridgeStart_keeps (s : State) :
    (bridgeStart s).cli = s.cli ∧ (bridgeStart s).dsp = s.dsp ∧ (bridgeStart s).tbs = s.tbs ∧
    (bridgeStart s).fnu = s.fnu ∧ (bridgeStart s).trc = s.trc ∧ (bridgeStart s).msq = s.msq ∧
    (bridgeStart s).cam = s.cam ∧ (bridgeStart s).snd = s.snd ∧ (bridgeStart s).smk = s.smk ∧
    (bridgeStart s).lmp = s.lmp ∧ (bridgeStart s).ppm = s.ppm ∧ (bridgeStart s).store = s.store ∧
    (bridgeStart s).samples = s.samples ∧ (bridgeStart s).free = s.free ∧ (bridgeStart s).pending = s.pending := by
  simp only [bridgeStart]
  simp

@[simp] theorem bridgeStop_keeps (s : State) (b : Bridge) :
    (bridgeStop s b).cli = s.cli ∧ (bridgeStop s b).dsp = s.dsp ∧ (bridgeStop s b).tbs = s.tbs ∧
    (bridgeStop s b).fnu = s.fnu ∧ (bridgeStop s b).trc = s.trc ∧ (bridgeStop s b).msq = s.msq ∧
    (bridgeStop s b).cam = s.cam ∧ (bridgeStop s b).snd = s.snd ∧ (bridgeStop s b).smk = s.smk ∧
    (bridgeStop s b).lmp = s.lmp ∧ (bridgeStop s b).ppm = s.ppm ∧ (bridgeStop s b).store = s.store ∧
    (bridgeStop s b).samples = s.samples ∧ (bridgeStop s b).free = s.free ∧ (bridgeStop s b).pending = s.pending := by
  simp only [bridgeStop]
  simp

@[simp] theorem abandonGap_keeps (s : State) :
    (abandonGap s).cli = s.cli ∧ (abandonGap s).dsp = s.dsp ∧ (abandonGap s).tbs = s.tbs ∧
    (abandonGap s).fnu = s.fnu ∧ (abandonGap s).cam = s.cam ∧ (abandonGap s).snd = s.snd ∧
    (abandonGap s).smk = s.smk ∧ (abandonGap s).lmp = s.lmp ∧ (abandonGap s).ppm = s.ppm ∧
    (abandonGap s).store = s.store ∧ (abandonGap s).samples = s.samples ∧ (abandonGap s).free = s.free ∧
    (abandonGap s).pending = s.pending := by
  simp only [abandonGap]
  (repeat' split) <;> simp

@[simp] theorem endTrip_keeps (s : State) :
    (endTrip s).cli = s.cli ∧ (endTrip s).dsp = s.dsp ∧ (endTrip s).tbs = s.tbs ∧ (endTrip s).fnu = s.fnu ∧
    (endTrip s).trc = s.trc ∧ (endTrip s).msq = s.msq ∧ (endTrip s).cam = s.cam ∧ (endTrip s).snd = s.snd ∧
    (endTrip s).smk = s.smk ∧ (endTrip s).lmp = s.lmp ∧ (endTrip s).ppm = s.ppm ∧ (endTrip s).store = s.store ∧
    (endTrip s).samples = s.samples ∧ (endTrip s).free = s.free ∧ (endTrip s).pending = s.pending := by
  simp only [endTrip]
  simp

@[simp] theorem bridgeOff_keeps (s : State) :
    (bridgeOff s).cli = s.cli ∧ (bridgeOff s).dsp = s.dsp ∧ (bridgeOff s).tbs = s.tbs ∧ (bridgeOff s).fnu = s.fnu ∧
    (bridgeOff s).trc = s.trc ∧ (bridgeOff s).msq = s.msq ∧ (bridgeOff s).cam = s.cam ∧ (bridgeOff s).snd = s.snd ∧
    (bridgeOff s).smk = s.smk ∧ (bridgeOff s).lmp = s.lmp ∧ (bridgeOff s).ppm = s.ppm ∧
    (bridgeOff s).store = s.store ∧ (bridgeOff s).samples = s.samples ∧ (bridgeOff s).free = s.free ∧
    (bridgeOff s).pending = s.pending := by
  simp only [bridgeOff]
  simp

@[simp] theorem bridgeEmergency_keeps (s : State) :
    (bridgeEmergency s).cli = s.cli ∧ (bridgeEmergency s).dsp = s.dsp ∧ (bridgeEmergency s).tbs = s.tbs ∧
    (bridgeEmergency s).fnu = s.fnu ∧ (bridgeEmergency s).trc = s.trc ∧ (bridgeEmergency s).msq = s.msq ∧
    (bridgeEmergency s).cam = s.cam ∧ (bridgeEmergency s).snd = s.snd ∧ (bridgeEmergency s).smk = s.smk ∧
    (bridgeEmergency s).lmp = s.lmp ∧ (bridgeEmergency s).ppm = s.ppm ∧ (bridgeEmergency s).store = s.store ∧
    (bridgeEmergency s).samples = s.samples ∧ (bridgeEmergency s).free = s.free ∧
    (bridgeEmergency s).pending = s.pending := by
  simp only [bridgeEmergency]
  (repeat' split) <;> simp

@[simp] theorem takeMode_keeps (s : State) (m : Mode) :
    (takeMode s m).cli = s.cli ∧ (takeMode s m).dsp = s.dsp ∧ (takeMode s m).tbs = s.tbs ∧
    (takeMode s m).fnu = s.fnu ∧ (takeMode s m).cam = s.cam ∧ (takeMode s m).snd = s.snd ∧
    (takeMode s m).smk = s.smk ∧ (takeMode s m).lmp = s.lmp ∧ (takeMode s m).ppm = s.ppm ∧
    (takeMode s m).store = s.store ∧ (takeMode s m).samples = s.samples ∧ (takeMode s m).free = s.free ∧
    (takeMode s m).pending = s.pending := by
  simp only [takeMode]
  (repeat' split) <;> simp

@[simp] theorem takeDirection_keeps (s : State) :
    (takeDirection s).cli = s.cli ∧ (takeDirection s).dsp = s.dsp ∧ (takeDirection s).tbs = s.tbs ∧
    (takeDirection s).fnu = s.fnu ∧ (takeDirection s).cam = s.cam ∧ (takeDirection s).snd = s.snd ∧
    (takeDirection s).smk = s.smk ∧ (takeDirection s).lmp = s.lmp ∧ (takeDirection s).ppm = s.ppm ∧
    (takeDirection s).store = s.store ∧ (takeDirection s).samples = s.samples ∧ (takeDirection s).free = s.free ∧
    (takeDirection s).pending = s.pending := by
  simp only [takeDirection]
  (repeat' split) <;> simp

/-- The time past at an at-once demand is not before the last one's, and lies within the period. -/
theorem timePast_spec (p : PwmPeriod) : p.past ≤ timePast p ∧ (p.past < p.length → timePast p < p.length) := by
  unfold timePast
  refine ⟨by omega, fun h => ?_⟩
  have := Nat.mod_lt (Config.timePassed p.ordinal p.demands) (y := p.length - p.past) (by omega)
  omega

@[simp] theorem takeDutyAtOnce_keeps (s : State) :
    (takeDutyAtOnce s).cli = s.cli ∧ (takeDutyAtOnce s).dsp = s.dsp ∧ (takeDutyAtOnce s).tbs = s.tbs ∧
    (takeDutyAtOnce s).fnu = s.fnu ∧ (takeDutyAtOnce s).trc = s.trc ∧ (takeDutyAtOnce s).msq = s.msq ∧
    (takeDutyAtOnce s).cam = s.cam ∧ (takeDutyAtOnce s).snd = s.snd ∧ (takeDutyAtOnce s).smk = s.smk ∧
    (takeDutyAtOnce s).lmp = s.lmp ∧ (takeDutyAtOnce s).ppm = s.ppm ∧ (takeDutyAtOnce s).store = s.store ∧
    (takeDutyAtOnce s).samples = s.samples ∧ (takeDutyAtOnce s).free = s.free ∧ (takeDutyAtOnce s).pending = s.pending := by
  simp only [takeDutyAtOnce]
  (repeat' split) <;> simp

@[simp] theorem takeDemand_keeps (s : State) (m : Mode) (d : Dir) (duty : Nat) (atOnce : Bool) :
    (takeDemand s m d duty atOnce).cli = s.cli ∧ (takeDemand s m d duty atOnce).dsp = s.dsp ∧
    (takeDemand s m d duty atOnce).tbs = s.tbs ∧ (takeDemand s m d duty atOnce).fnu = s.fnu ∧
    (takeDemand s m d duty atOnce).cam = s.cam ∧ (takeDemand s m d duty atOnce).snd = s.snd ∧
    (takeDemand s m d duty atOnce).smk = s.smk ∧ (takeDemand s m d duty atOnce).lmp = s.lmp ∧
    (takeDemand s m d duty atOnce).ppm = s.ppm ∧ (takeDemand s m d duty atOnce).store = s.store ∧
    (takeDemand s m d duty atOnce).samples = s.samples ∧ (takeDemand s m d duty atOnce).free = s.free ∧
    (takeDemand s m d duty atOnce).pending = s.pending := by
  simp only [takeDemand]
  (repeat' split) <;> simp

@[simp] theorem gapOffer_keeps (s : State) :
    (gapOffer s).cli = s.cli ∧ (gapOffer s).dsp = s.dsp ∧ (gapOffer s).tbs = s.tbs ∧ (gapOffer s).fnu = s.fnu ∧
    (gapOffer s).cam = s.cam ∧ (gapOffer s).snd = s.snd ∧ (gapOffer s).smk = s.smk ∧ (gapOffer s).lmp = s.lmp ∧
    (gapOffer s).ppm = s.ppm ∧ (gapOffer s).store = s.store ∧ (gapOffer s).samples = s.samples ∧
    (gapOffer s).free = s.free ∧ (gapOffer s).pending = s.pending := by
  simp only [gapOffer]
  (repeat' split) <;> simp

@[simp] theorem periodEnd_keeps (s : State) :
    (periodEnd s).cli = s.cli ∧ (periodEnd s).dsp = s.dsp ∧ (periodEnd s).tbs = s.tbs ∧ (periodEnd s).fnu = s.fnu ∧
    (periodEnd s).trc = s.trc ∧ (periodEnd s).msq = s.msq ∧ (periodEnd s).cam = s.cam ∧ (periodEnd s).snd = s.snd ∧
    (periodEnd s).smk = s.smk ∧ (periodEnd s).lmp = s.lmp ∧ (periodEnd s).ppm = s.ppm ∧
    (periodEnd s).store = s.store ∧ (periodEnd s).samples = s.samples ∧ (periodEnd s).free = s.free ∧
    (periodEnd s).pending = s.pending := by
  simp only [periodEnd]
  (repeat' split) <;> simp

@[simp] theorem settleExpiry_keeps (s : State) :
    (settleExpiry s).cli = s.cli ∧ (settleExpiry s).dsp = s.dsp ∧ (settleExpiry s).tbs = s.tbs ∧
    (settleExpiry s).fnu = s.fnu ∧ (settleExpiry s).trc = s.trc ∧ (settleExpiry s).cam = s.cam ∧
    (settleExpiry s).snd = s.snd ∧ (settleExpiry s).smk = s.smk ∧ (settleExpiry s).lmp = s.lmp ∧
    (settleExpiry s).ppm = s.ppm ∧ (settleExpiry s).store = s.store ∧ (settleExpiry s).samples = s.samples ∧
    (settleExpiry s).free = s.free ∧ (settleExpiry s).pending = s.pending := by
  simp only [settleExpiry]
  (repeat' split) <;> simp

@[simp] theorem gapEnd_keeps (s : State) :
    (gapEnd s).cli = s.cli ∧ (gapEnd s).dsp = s.dsp ∧ (gapEnd s).tbs = s.tbs ∧ (gapEnd s).fnu = s.fnu ∧
    (gapEnd s).trc = s.trc ∧ (gapEnd s).msq = s.msq ∧ (gapEnd s).cam = s.cam ∧ (gapEnd s).snd = s.snd ∧
    (gapEnd s).smk = s.smk ∧ (gapEnd s).lmp = s.lmp ∧ (gapEnd s).ppm = s.ppm ∧ (gapEnd s).store = s.store ∧
    (gapEnd s).samples = s.samples ∧ (gapEnd s).free = s.free ∧ (gapEnd s).pending = s.pending := by
  simp only [gapEnd]
  (repeat' split) <;> simp

@[simp] theorem workOutLoad_keeps (s : State) :
    (workOutLoad s).cli = s.cli ∧ (workOutLoad s).dsp = s.dsp ∧ (workOutLoad s).tbs = s.tbs ∧
    (workOutLoad s).fnu = s.fnu ∧ (workOutLoad s).mbr = s.mbr ∧ (workOutLoad s).msq = s.msq ∧
    (workOutLoad s).cam = s.cam ∧ (workOutLoad s).snd = s.snd ∧ (workOutLoad s).smk = s.smk ∧
    (workOutLoad s).lmp = s.lmp ∧ (workOutLoad s).ppm = s.ppm ∧ (workOutLoad s).store = s.store ∧
    (workOutLoad s).samples = s.samples ∧ (workOutLoad s).free = s.free ∧ (workOutLoad s).pending = s.pending := by
  simp only [workOutLoad]
  (repeat' split) <;> simp

@[simp] theorem clearFaultFlags_keeps (s : State) :
    (clearFaultFlags s).cli = s.cli ∧ (clearFaultFlags s).dsp = s.dsp ∧ (clearFaultFlags s).tbs = s.tbs ∧
    (clearFaultFlags s).fnu = s.fnu ∧ (clearFaultFlags s).trc = s.trc ∧ (clearFaultFlags s).msq = s.msq ∧
    (clearFaultFlags s).cam = s.cam ∧ (clearFaultFlags s).lmp = s.lmp ∧ (clearFaultFlags s).ppm = s.ppm ∧
    (clearFaultFlags s).store = s.store ∧ (clearFaultFlags s).samples = s.samples ∧
    (clearFaultFlags s).free = s.free ∧ (clearFaultFlags s).pending = s.pending := by
  simp only [clearFaultFlags]
  simp

@[simp] theorem handDemand_keeps (s : State) (atOnce : Bool) :
    (handDemand s atOnce).cli = s.cli ∧ (handDemand s atOnce).dsp = s.dsp ∧ (handDemand s atOnce).tbs = s.tbs ∧
    (handDemand s atOnce).fnu = s.fnu ∧ (handDemand s atOnce).cam = s.cam ∧ (handDemand s atOnce).snd = s.snd ∧
    (handDemand s atOnce).smk = s.smk ∧ (handDemand s atOnce).lmp = s.lmp ∧ (handDemand s atOnce).ppm = s.ppm ∧
    (handDemand s atOnce).store = s.store ∧ (handDemand s atOnce).samples = s.samples ∧
    (handDemand s atOnce).free = s.free ∧ (handDemand s atOnce).pending = s.pending := by
  simp only [handDemand]
  (repeat' split) <;> simp

@[simp] theorem followDirection_keeps (s : State) :
    (followDirection s).cli = s.cli ∧ (followDirection s).dsp = s.dsp ∧ (followDirection s).tbs = s.tbs ∧
    (followDirection s).fnu = s.fnu ∧ (followDirection s).mbr = s.mbr ∧ (followDirection s).msq = s.msq ∧
    (followDirection s).cam = s.cam ∧ (followDirection s).snd = s.snd ∧ (followDirection s).smk = s.smk ∧
    (followDirection s).lmp = s.lmp ∧ (followDirection s).ppm = s.ppm ∧ (followDirection s).store = s.store ∧
    (followDirection s).samples = s.samples ∧ (followDirection s).free = s.free ∧
    (followDirection s).pending = s.pending := by
  simp only [followDirection]
  (repeat' split) <;> simp

@[simp] theorem testBemfTimer_keeps (s : State) :
    (testBemfTimer s).cli = s.cli ∧ (testBemfTimer s).dsp = s.dsp ∧ (testBemfTimer s).tbs = s.tbs ∧
    (testBemfTimer s).fnu = s.fnu ∧ (testBemfTimer s).mbr = s.mbr ∧ (testBemfTimer s).msq = s.msq ∧
    (testBemfTimer s).cam = s.cam ∧ (testBemfTimer s).snd = s.snd ∧ (testBemfTimer s).smk = s.smk ∧
    (testBemfTimer s).lmp = s.lmp ∧ (testBemfTimer s).ppm = s.ppm ∧ (testBemfTimer s).store = s.store ∧
    (testBemfTimer s).samples = s.samples ∧ (testBemfTimer s).free = s.free ∧ (testBemfTimer s).pending = s.pending := by
  simp only [testBemfTimer]
  (repeat' split) <;> simp

@[simp] theorem testStall_keeps (s : State) :
    (testStall s).cli = s.cli ∧ (testStall s).dsp = s.dsp ∧ (testStall s).tbs = s.tbs ∧ (testStall s).fnu = s.fnu ∧
    (testStall s).mbr = s.mbr ∧ (testStall s).msq = s.msq ∧ (testStall s).cam = s.cam ∧ (testStall s).snd = s.snd ∧
    (testStall s).smk = s.smk ∧ (testStall s).lmp = s.lmp ∧ (testStall s).ppm = s.ppm ∧
    (testStall s).store = s.store ∧ (testStall s).samples = s.samples ∧ (testStall s).free = s.free ∧
    (testStall s).pending = s.pending := by
  simp only [testStall]
  (repeat' split) <;> simp

@[simp] theorem publishTraction_keeps (before : Dir) (s : State) :
    (publishTraction before s).cli = s.cli ∧ (publishTraction before s).dsp = s.dsp ∧
    (publishTraction before s).tbs = s.tbs ∧ (publishTraction before s).mbr = s.mbr ∧
    (publishTraction before s).msq = s.msq ∧ (publishTraction before s).cam = s.cam ∧
    (publishTraction before s).snd = s.snd ∧ (publishTraction before s).smk = s.smk ∧
    (publishTraction before s).lmp = s.lmp ∧ (publishTraction before s).ppm = s.ppm ∧
    (publishTraction before s).store = s.store ∧ (publishTraction before s).samples = s.samples ∧
    (publishTraction before s).free = s.free ∧ (publishTraction before s).pending = s.pending := by
  simp only [publishTraction]
  (repeat' split) <;> simp

@[simp] theorem tractionEnd_keeps (before : Trc) (tick work atOnce : Bool) (s : State) :
    (tractionEnd before tick work atOnce s).cli = s.cli ∧ (tractionEnd before tick work atOnce s).dsp = s.dsp ∧
    (tractionEnd before tick work atOnce s).tbs = s.tbs ∧ (tractionEnd before tick work atOnce s).cam = s.cam ∧
    (tractionEnd before tick work atOnce s).snd = s.snd ∧ (tractionEnd before tick work atOnce s).smk = s.smk ∧
    (tractionEnd before tick work atOnce s).lmp = s.lmp ∧ (tractionEnd before tick work atOnce s).ppm = s.ppm ∧
    (tractionEnd before tick work atOnce s).store = s.store ∧
    (tractionEnd before tick work atOnce s).samples = s.samples ∧
    (tractionEnd before tick work atOnce s).free = s.free ∧
    (tractionEnd before tick work atOnce s).pending = s.pending := by
  simp only [tractionEnd]
  (repeat' split) <;> simp

@[simp] theorem workOutTarget_keeps (s : State) :
    (workOutTarget s).cli = s.cli ∧ (workOutTarget s).dsp = s.dsp ∧ (workOutTarget s).tbs = s.tbs ∧
    (workOutTarget s).fnu = s.fnu ∧ (workOutTarget s).mbr = s.mbr ∧ (workOutTarget s).msq = s.msq ∧
    (workOutTarget s).cam = s.cam ∧ (workOutTarget s).snd = s.snd ∧ (workOutTarget s).smk = s.smk ∧
    (workOutTarget s).lmp = s.lmp ∧ (workOutTarget s).ppm = s.ppm ∧ (workOutTarget s).store = s.store ∧
    (workOutTarget s).samples = s.samples ∧ (workOutTarget s).free = s.free ∧ (workOutTarget s).pending = s.pending := by
  simp only [workOutTarget]
  (repeat' split) <;> simp

@[simp] theorem retarget_keeps (s : State) :
    (retarget s).cli = s.cli ∧ (retarget s).dsp = s.dsp ∧ (retarget s).tbs = s.tbs ∧ (retarget s).cam = s.cam ∧
    (retarget s).snd = s.snd ∧ (retarget s).smk = s.smk ∧ (retarget s).lmp = s.lmp ∧ (retarget s).ppm = s.ppm ∧
    (retarget s).store = s.store ∧ (retarget s).samples = s.samples ∧ (retarget s).free = s.free ∧
    (retarget s).pending = s.pending := by
  simp only [retarget]
  simp

@[simp] theorem tractionShunt_keeps (s : State) (on : Bool) :
    (tractionShunt s on).cli = s.cli ∧ (tractionShunt s on).dsp = s.dsp ∧ (tractionShunt s on).tbs = s.tbs ∧
    (tractionShunt s on).cam = s.cam ∧ (tractionShunt s on).snd = s.snd ∧ (tractionShunt s on).smk = s.smk ∧
    (tractionShunt s on).lmp = s.lmp ∧ (tractionShunt s on).ppm = s.ppm ∧ (tractionShunt s on).store = s.store ∧
    (tractionShunt s on).samples = s.samples ∧ (tractionShunt s on).free = s.free ∧
    (tractionShunt s on).pending = s.pending := by
  simp only [tractionShunt]
  simp

@[simp] theorem tractionMomentum_keeps (s : State) (on : Bool) :
    (tractionMomentum s on).cli = s.cli ∧ (tractionMomentum s on).dsp = s.dsp ∧ (tractionMomentum s on).tbs = s.tbs ∧
    (tractionMomentum s on).fnu = s.fnu ∧ (tractionMomentum s on).mbr = s.mbr ∧ (tractionMomentum s on).msq = s.msq ∧
    (tractionMomentum s on).cam = s.cam ∧ (tractionMomentum s on).snd = s.snd ∧ (tractionMomentum s on).smk = s.smk ∧
    (tractionMomentum s on).lmp = s.lmp ∧ (tractionMomentum s on).ppm = s.ppm ∧
    (tractionMomentum s on).store = s.store ∧ (tractionMomentum s on).samples = s.samples ∧
    (tractionMomentum s on).free = s.free ∧ (tractionMomentum s on).pending = s.pending := by
  simp only [tractionMomentum]
  simp

@[simp] theorem rampTick_keeps (s : State) :
    (rampTick s).cli = s.cli ∧ (rampTick s).dsp = s.dsp ∧ (rampTick s).tbs = s.tbs ∧ (rampTick s).cam = s.cam ∧
    (rampTick s).snd = s.snd ∧ (rampTick s).smk = s.smk ∧ (rampTick s).lmp = s.lmp ∧ (rampTick s).ppm = s.ppm ∧
    (rampTick s).store = s.store ∧ (rampTick s).samples = s.samples ∧ (rampTick s).free = s.free ∧
    (rampTick s).pending = s.pending := by
  simp only [rampTick]
  (repeat' split) <;> simp

@[simp] theorem driveArmed_keeps (s : State) (step : Nat) (d : Dir) :
    (driveArmed s step d).cli = s.cli ∧ (driveArmed s step d).dsp = s.dsp ∧ (driveArmed s step d).tbs = s.tbs ∧
    (driveArmed s step d).cam = s.cam ∧ (driveArmed s step d).snd = s.snd ∧ (driveArmed s step d).smk = s.smk ∧
    (driveArmed s step d).lmp = s.lmp ∧ (driveArmed s step d).ppm = s.ppm ∧ (driveArmed s step d).store = s.store ∧
    (driveArmed s step d).samples = s.samples ∧ (driveArmed s step d).free = s.free ∧
    (driveArmed s step d).pending = s.pending := by
  simp only [driveArmed]
  simp

@[simp] theorem rearm_keeps (s : State) (d : Dir) :
    (rearm s d).cli = s.cli ∧ (rearm s d).dsp = s.dsp ∧ (rearm s d).tbs = s.tbs ∧ (rearm s d).cam = s.cam ∧
    (rearm s d).snd = s.snd ∧ (rearm s d).smk = s.smk ∧ (rearm s d).lmp = s.lmp ∧ (rearm s d).ppm = s.ppm ∧
    (rearm s d).store = s.store ∧ (rearm s d).samples = s.samples ∧ (rearm s d).free = s.free ∧
    (rearm s d).pending = s.pending := by
  simp only [rearm]
  (repeat' split) <;> simp

@[simp] theorem driveCommand_keeps (s : State) (step : Nat) (d : Dir) :
    (driveCommand s step d).cli = s.cli ∧ (driveCommand s step d).dsp = s.dsp ∧ (driveCommand s step d).tbs = s.tbs ∧
    (driveCommand s step d).cam = s.cam ∧ (driveCommand s step d).snd = s.snd ∧ (driveCommand s step d).smk = s.smk ∧
    (driveCommand s step d).lmp = s.lmp ∧ (driveCommand s step d).ppm = s.ppm ∧
    (driveCommand s step d).store = s.store ∧ (driveCommand s step d).samples = s.samples ∧
    (driveCommand s step d).free = s.free ∧ (driveCommand s step d).pending = s.pending := by
  simp only [driveCommand]
  (repeat' split) <;> simp

@[simp] theorem emergencyHalt_keeps (s : State) :
    (emergencyHalt s).cli = s.cli ∧ (emergencyHalt s).dsp = s.dsp ∧ (emergencyHalt s).tbs = s.tbs ∧
    (emergencyHalt s).cam = s.cam ∧ (emergencyHalt s).snd = s.snd ∧ (emergencyHalt s).smk = s.smk ∧
    (emergencyHalt s).lmp = s.lmp ∧ (emergencyHalt s).ppm = s.ppm ∧ (emergencyHalt s).store = s.store ∧
    (emergencyHalt s).samples = s.samples ∧ (emergencyHalt s).free = s.free ∧ (emergencyHalt s).pending = s.pending := by
  simp only [emergencyHalt]
  (repeat' split) <;> simp

@[simp] theorem statedInverted_keeps (s : State) :
    (statedInverted s).cli = s.cli ∧ (statedInverted s).dsp = s.dsp ∧ (statedInverted s).tbs = s.tbs ∧
    (statedInverted s).cam = s.cam ∧ (statedInverted s).snd = s.snd ∧ (statedInverted s).smk = s.smk ∧
    (statedInverted s).lmp = s.lmp ∧ (statedInverted s).ppm = s.ppm ∧ (statedInverted s).store = s.store ∧
    (statedInverted s).samples = s.samples ∧ (statedInverted s).free = s.free ∧ (statedInverted s).pending = s.pending := by
  simp only [statedInverted]
  (repeat' split) <;> simp

@[simp] theorem lossNotice_keeps (s : State) :
    (lossNotice s).cli = s.cli ∧ (lossNotice s).dsp = s.dsp ∧ (lossNotice s).tbs = s.tbs ∧
    (lossNotice s).cam = s.cam ∧ (lossNotice s).snd = s.snd ∧ (lossNotice s).smk = s.smk ∧
    (lossNotice s).lmp = s.lmp ∧ (lossNotice s).ppm = s.ppm ∧ (lossNotice s).store = s.store ∧
    (lossNotice s).samples = s.samples ∧ (lossNotice s).free = s.free ∧ (lossNotice s).pending = s.pending := by
  simp only [lossNotice]
  (repeat' split) <;> simp

@[simp] theorem tripNotice_keeps (s : State) :
    (tripNotice s).cli = s.cli ∧ (tripNotice s).dsp = s.dsp ∧ (tripNotice s).tbs = s.tbs ∧
    (tripNotice s).cam = s.cam ∧ (tripNotice s).snd = s.snd ∧ (tripNotice s).smk = s.smk ∧
    (tripNotice s).lmp = s.lmp ∧ (tripNotice s).ppm = s.ppm ∧ (tripNotice s).store = s.store ∧
    (tripNotice s).samples = s.samples ∧ (tripNotice s).free = s.free ∧ (tripNotice s).pending = s.pending := by
  simp only [tripNotice]
  (repeat' split) <;> simp

@[simp] theorem retryNotice_keeps (s : State) :
    (retryNotice s).cli = s.cli ∧ (retryNotice s).dsp = s.dsp ∧ (retryNotice s).tbs = s.tbs ∧
    (retryNotice s).cam = s.cam ∧ (retryNotice s).snd = s.snd ∧ (retryNotice s).smk = s.smk ∧
    (retryNotice s).lmp = s.lmp ∧ (retryNotice s).ppm = s.ppm ∧ (retryNotice s).store = s.store ∧
    (retryNotice s).samples = s.samples ∧ (retryNotice s).free = s.free ∧ (retryNotice s).pending = s.pending := by
  simp only [retryNotice]
  (repeat' split) <;> simp

@[simp] theorem lockoutNotice_keeps (s : State) :
    (lockoutNotice s).cli = s.cli ∧ (lockoutNotice s).dsp = s.dsp ∧ (lockoutNotice s).tbs = s.tbs ∧
    (lockoutNotice s).cam = s.cam ∧ (lockoutNotice s).snd = s.snd ∧ (lockoutNotice s).smk = s.smk ∧
    (lockoutNotice s).lmp = s.lmp ∧ (lockoutNotice s).ppm = s.ppm ∧ (lockoutNotice s).store = s.store ∧
    (lockoutNotice s).samples = s.samples ∧ (lockoutNotice s).free = s.free ∧ (lockoutNotice s).pending = s.pending := by
  simp only [lockoutNotice]
  (repeat' split) <;> simp

@[simp] theorem stallExpiry_keeps (s : State) :
    (stallExpiry s).cli = s.cli ∧ (stallExpiry s).dsp = s.dsp ∧ (stallExpiry s).tbs = s.tbs ∧
    (stallExpiry s).cam = s.cam ∧ (stallExpiry s).snd = s.snd ∧ (stallExpiry s).smk = s.smk ∧
    (stallExpiry s).lmp = s.lmp ∧ (stallExpiry s).ppm = s.ppm ∧ (stallExpiry s).store = s.store ∧
    (stallExpiry s).samples = s.samples ∧ (stallExpiry s).free = s.free ∧ (stallExpiry s).pending = s.pending := by
  simp only [stallExpiry]
  (repeat' split) <;> simp

@[simp] theorem tractionPower_keeps (s : State) (p : PowerState) :
    (tractionPower s p).cli = s.cli ∧ (tractionPower s p).dsp = s.dsp ∧ (tractionPower s p).tbs = s.tbs ∧
    (tractionPower s p).cam = s.cam ∧ (tractionPower s p).snd = s.snd ∧ (tractionPower s p).smk = s.smk ∧
    (tractionPower s p).lmp = s.lmp ∧ (tractionPower s p).ppm = s.ppm ∧ (tractionPower s p).store = s.store ∧
    (tractionPower s p).samples = s.samples ∧ (tractionPower s p).free = s.free ∧
    (tractionPower s p).pending = s.pending := by
  simp only [tractionPower]
  (repeat' split) <;> simp

@[simp] theorem tractionCap_keeps (s : State) (dcap : Nat) :
    (tractionCap s dcap).cli = s.cli ∧ (tractionCap s dcap).dsp = s.dsp ∧ (tractionCap s dcap).tbs = s.tbs ∧
    (tractionCap s dcap).cam = s.cam ∧ (tractionCap s dcap).snd = s.snd ∧ (tractionCap s dcap).smk = s.smk ∧
    (tractionCap s dcap).lmp = s.lmp ∧ (tractionCap s dcap).ppm = s.ppm ∧ (tractionCap s dcap).store = s.store ∧
    (tractionCap s dcap).samples = s.samples ∧ (tractionCap s dcap).free = s.free ∧
    (tractionCap s dcap).pending = s.pending := by
  simp only [tractionCap]
  (repeat' split) <;> simp

@[simp] theorem bemfResult_keeps (s : State) (raw : Nat) :
    (bemfResult s raw).cli = s.cli ∧ (bemfResult s raw).dsp = s.dsp ∧ (bemfResult s raw).tbs = s.tbs ∧
    (bemfResult s raw).cam = s.cam ∧ (bemfResult s raw).snd = s.snd ∧ (bemfResult s raw).smk = s.smk ∧
    (bemfResult s raw).lmp = s.lmp ∧ (bemfResult s raw).ppm = s.ppm ∧ (bemfResult s raw).store = s.store ∧
    (bemfResult s raw).samples = s.samples ∧ (bemfResult s raw).free = s.free ∧ (bemfResult s raw).pending = s.pending := by
  simp only [bemfResult]
  (repeat' split) <;> simp

@[simp] theorem bemfExpiry_keeps (s : State) :
    (bemfExpiry s).cli = s.cli ∧ (bemfExpiry s).dsp = s.dsp ∧ (bemfExpiry s).tbs = s.tbs ∧
    (bemfExpiry s).fnu = s.fnu ∧ (bemfExpiry s).cam = s.cam ∧ (bemfExpiry s).snd = s.snd ∧
    (bemfExpiry s).smk = s.smk ∧ (bemfExpiry s).lmp = s.lmp ∧ (bemfExpiry s).ppm = s.ppm ∧
    (bemfExpiry s).store = s.store ∧ (bemfExpiry s).samples = s.samples ∧ (bemfExpiry s).free = s.free ∧
    (bemfExpiry s).pending = s.pending := by
  simp only [bemfExpiry]
  (repeat' split) <;> simp

@[simp] theorem lockoutOpens_keeps (s : State) :
    (lockoutOpens s).cli = s.cli ∧ (lockoutOpens s).dsp = s.dsp ∧ (lockoutOpens s).tbs = s.tbs ∧
    (lockoutOpens s).fnu = s.fnu ∧ (lockoutOpens s).trc = s.trc ∧ (lockoutOpens s).msq = s.msq ∧
    (lockoutOpens s).cam = s.cam ∧ (lockoutOpens s).snd = s.snd ∧ (lockoutOpens s).smk = s.smk ∧
    (lockoutOpens s).lmp = s.lmp ∧ (lockoutOpens s).ppm = s.ppm ∧ (lockoutOpens s).store = s.store ∧
    (lockoutOpens s).samples = s.samples ∧ (lockoutOpens s).free = s.free ∧ (lockoutOpens s).pending = s.pending := by
  simp only [lockoutOpens]
  (repeat' split) <;> simp

@[simp] theorem judgeOverload_keeps (s : State) :
    (judgeOverload s).cli = s.cli ∧ (judgeOverload s).dsp = s.dsp ∧ (judgeOverload s).tbs = s.tbs ∧
    (judgeOverload s).cam = s.cam ∧ (judgeOverload s).snd = s.snd ∧ (judgeOverload s).smk = s.smk ∧
    (judgeOverload s).lmp = s.lmp ∧ (judgeOverload s).ppm = s.ppm ∧ (judgeOverload s).store = s.store ∧
    (judgeOverload s).samples = s.samples ∧ (judgeOverload s).free = s.free ∧ (judgeOverload s).pending = s.pending := by
  simp only [judgeOverload]
  (repeat' split) <;> simp

@[simp] theorem judgeShort_keeps (s : State) :
    (judgeShort s).cli = s.cli ∧ (judgeShort s).dsp = s.dsp ∧ (judgeShort s).tbs = s.tbs ∧
    (judgeShort s).cam = s.cam ∧ (judgeShort s).snd = s.snd ∧ (judgeShort s).smk = s.smk ∧
    (judgeShort s).lmp = s.lmp ∧ (judgeShort s).ppm = s.ppm ∧ (judgeShort s).store = s.store ∧
    (judgeShort s).samples = s.samples ∧ (judgeShort s).free = s.free ∧ (judgeShort s).pending = s.pending := by
  simp only [judgeShort]
  simp

@[simp] theorem judgeTrip_keeps (s : State) (code : Nat) :
    (judgeTrip s code).cli = s.cli ∧ (judgeTrip s code).dsp = s.dsp ∧ (judgeTrip s code).tbs = s.tbs ∧
    (judgeTrip s code).cam = s.cam ∧ (judgeTrip s code).snd = s.snd ∧ (judgeTrip s code).smk = s.smk ∧
    (judgeTrip s code).lmp = s.lmp ∧ (judgeTrip s code).ppm = s.ppm ∧ (judgeTrip s code).store = s.store ∧
    (judgeTrip s code).samples = s.samples ∧ (judgeTrip s code).free = s.free ∧ (judgeTrip s code).pending = s.pending := by
  simp only [judgeTrip]
  (repeat' split) <;> simp

@[simp] theorem bridgeTripped_keeps (s : State) :
    (bridgeTripped s).cli = s.cli ∧ (bridgeTripped s).dsp = s.dsp ∧ (bridgeTripped s).tbs = s.tbs ∧
    (bridgeTripped s).fnu = s.fnu ∧ (bridgeTripped s).cam = s.cam ∧ (bridgeTripped s).snd = s.snd ∧
    (bridgeTripped s).smk = s.smk ∧ (bridgeTripped s).lmp = s.lmp ∧ (bridgeTripped s).ppm = s.ppm ∧
    (bridgeTripped s).store = s.store ∧ (bridgeTripped s).samples = s.samples ∧ (bridgeTripped s).free = s.free ∧
    (bridgeTripped s).pending = s.pending := by
  simp only [bridgeTripped]
  simp

@[simp] theorem tripMeasure_keeps (s : State) :
    (tripMeasure s).cli = s.cli ∧ (tripMeasure s).dsp = s.dsp ∧ (tripMeasure s).tbs = s.tbs ∧
    (tripMeasure s).cam = s.cam ∧ (tripMeasure s).snd = s.snd ∧ (tripMeasure s).smk = s.smk ∧
    (tripMeasure s).lmp = s.lmp ∧ (tripMeasure s).ppm = s.ppm ∧ (tripMeasure s).store = s.store ∧
    (tripMeasure s).samples = s.samples ∧ (tripMeasure s).free = s.free ∧ (tripMeasure s).pending = s.pending := by
  simp only [tripMeasure]
  (repeat' split) <;> simp

@[simp] theorem overcurrent_keeps (s : State) (milliamps : Nat) :
    (overcurrent s milliamps).cli = s.cli ∧ (overcurrent s milliamps).dsp = s.dsp ∧
    (overcurrent s milliamps).tbs = s.tbs ∧ (overcurrent s milliamps).cam = s.cam ∧
    (overcurrent s milliamps).snd = s.snd ∧ (overcurrent s milliamps).smk = s.smk ∧
    (overcurrent s milliamps).lmp = s.lmp ∧ (overcurrent s milliamps).ppm = s.ppm ∧
    (overcurrent s milliamps).store = s.store ∧ (overcurrent s milliamps).samples = s.samples ∧
    (overcurrent s milliamps).free = s.free ∧ (overcurrent s milliamps).pending = s.pending := by
  simp only [overcurrent]
  (repeat' split) <;> simp

@[simp] theorem retryExpiry_keeps (s : State) :
    (retryExpiry s).cli = s.cli ∧ (retryExpiry s).dsp = s.dsp ∧ (retryExpiry s).tbs = s.tbs ∧
    (retryExpiry s).cam = s.cam ∧ (retryExpiry s).snd = s.snd ∧ (retryExpiry s).smk = s.smk ∧
    (retryExpiry s).lmp = s.lmp ∧ (retryExpiry s).ppm = s.ppm ∧ (retryExpiry s).store = s.store ∧
    (retryExpiry s).samples = s.samples ∧ (retryExpiry s).free = s.free ∧ (retryExpiry s).pending = s.pending := by
  simp only [retryExpiry]
  (repeat' split) <;> simp

@[simp] theorem tripFreeExpiry_keeps (s : State) :
    (tripFreeExpiry s).cli = s.cli ∧ (tripFreeExpiry s).dsp = s.dsp ∧ (tripFreeExpiry s).tbs = s.tbs ∧
    (tripFreeExpiry s).fnu = s.fnu ∧ (tripFreeExpiry s).trc = s.trc ∧ (tripFreeExpiry s).msq = s.msq ∧
    (tripFreeExpiry s).cam = s.cam ∧ (tripFreeExpiry s).snd = s.snd ∧ (tripFreeExpiry s).smk = s.smk ∧
    (tripFreeExpiry s).lmp = s.lmp ∧ (tripFreeExpiry s).ppm = s.ppm ∧ (tripFreeExpiry s).store = s.store ∧
    (tripFreeExpiry s).samples = s.samples ∧ (tripFreeExpiry s).free = s.free ∧ (tripFreeExpiry s).pending = s.pending := by
  simp only [tripFreeExpiry]
  (repeat' split) <;> simp

end Sys2Proof.Machine
end

