-- ==== Sys2Proof/Laws/OutputKeeps.lean ====
section
/-!
SUPPORT. One lemma an operation: what each operation of smoke, lamps, sound and cam leaves as it was. Each conjunct is a rewriting rule of `simp`.
-/
namespace Sys2Proof.Machine

@[simp] theorem smokeEnd_keeps (before : SmokeState) (s : State) :
    (smokeEnd before s).cli = s.cli ∧ (smokeEnd before s).dsp = s.dsp ∧ (smokeEnd before s).tbs = s.tbs ∧
    (smokeEnd before s).trc = s.trc ∧ (smokeEnd before s).mbr = s.mbr ∧ (smokeEnd before s).msq = s.msq ∧
    (smokeEnd before s).cam = s.cam ∧ (smokeEnd before s).snd = s.snd ∧ (smokeEnd before s).smk = s.smk ∧
    (smokeEnd before s).lmp = s.lmp ∧ (smokeEnd before s).ppm = s.ppm ∧ (smokeEnd before s).store = s.store ∧
    (smokeEnd before s).samples = s.samples ∧ (smokeEnd before s).free = s.free ∧
    (smokeEnd before s).pending = s.pending := by
  simp only [smokeEnd]
  (repeat' split) <;> simp

@[simp] theorem smokeRequest_keeps (s : State) :
    (smokeRequest s).cli = s.cli ∧ (smokeRequest s).dsp = s.dsp ∧ (smokeRequest s).tbs = s.tbs ∧
    (smokeRequest s).fnu = s.fnu ∧ (smokeRequest s).trc = s.trc ∧ (smokeRequest s).mbr = s.mbr ∧
    (smokeRequest s).cam = s.cam ∧ (smokeRequest s).snd = s.snd ∧ (smokeRequest s).smk = s.smk ∧
    (smokeRequest s).lmp = s.lmp ∧ (smokeRequest s).ppm = s.ppm ∧ (smokeRequest s).store = s.store ∧
    (smokeRequest s).samples = s.samples ∧ (smokeRequest s).free = s.free ∧ (smokeRequest s).pending = s.pending := by
  simp only [smokeRequest]
  simp

@[simp] theorem smokeEnableOn_keeps (s : State) :
    (smokeEnableOn s).cli = s.cli ∧ (smokeEnableOn s).dsp = s.dsp ∧ (smokeEnableOn s).tbs = s.tbs ∧
    (smokeEnableOn s).trc = s.trc ∧ (smokeEnableOn s).mbr = s.mbr ∧ (smokeEnableOn s).cam = s.cam ∧
    (smokeEnableOn s).snd = s.snd ∧ (smokeEnableOn s).lmp = s.lmp ∧ (smokeEnableOn s).ppm = s.ppm ∧
    (smokeEnableOn s).store = s.store ∧ (smokeEnableOn s).samples = s.samples ∧ (smokeEnableOn s).free = s.free ∧
    (smokeEnableOn s).pending = s.pending := by
  simp only [smokeEnableOn]
  (repeat' split) <;> simp

@[simp] theorem smokeEnableOff_keeps (s : State) :
    (smokeEnableOff s).cli = s.cli ∧ (smokeEnableOff s).dsp = s.dsp ∧ (smokeEnableOff s).tbs = s.tbs ∧
    (smokeEnableOff s).trc = s.trc ∧ (smokeEnableOff s).mbr = s.mbr ∧ (smokeEnableOff s).msq = s.msq ∧
    (smokeEnableOff s).cam = s.cam ∧ (smokeEnableOff s).snd = s.snd ∧ (smokeEnableOff s).lmp = s.lmp ∧
    (smokeEnableOff s).ppm = s.ppm ∧ (smokeEnableOff s).store = s.store ∧ (smokeEnableOff s).samples = s.samples ∧
    (smokeEnableOff s).free = s.free ∧ (smokeEnableOff s).pending = s.pending := by
  simp only [smokeEnableOff]
  (repeat' split) <;> simp

@[simp] theorem smokeEnable_keeps (s : State) (on : Bool) :
    (smokeEnable s on).cli = s.cli ∧ (smokeEnable s on).dsp = s.dsp ∧ (smokeEnable s on).tbs = s.tbs ∧
    (smokeEnable s on).trc = s.trc ∧ (smokeEnable s on).mbr = s.mbr ∧ (smokeEnable s on).cam = s.cam ∧
    (smokeEnable s on).snd = s.snd ∧ (smokeEnable s on).lmp = s.lmp ∧ (smokeEnable s on).ppm = s.ppm ∧
    (smokeEnable s on).store = s.store ∧ (smokeEnable s on).samples = s.samples ∧ (smokeEnable s on).free = s.free ∧
    (smokeEnable s on).pending = s.pending := by
  simp only [smokeEnable]
  (repeat' split) <;> simp

@[simp] theorem smokeResult_keeps (s : State) (tm : Nat) :
    (smokeResult s tm).cli = s.cli ∧ (smokeResult s tm).dsp = s.dsp ∧ (smokeResult s tm).tbs = s.tbs ∧
    (smokeResult s tm).trc = s.trc ∧ (smokeResult s tm).mbr = s.mbr ∧ (smokeResult s tm).msq = s.msq ∧
    (smokeResult s tm).cam = s.cam ∧ (smokeResult s tm).snd = s.snd ∧ (smokeResult s tm).lmp = s.lmp ∧
    (smokeResult s tm).ppm = s.ppm ∧ (smokeResult s tm).store = s.store ∧ (smokeResult s tm).samples = s.samples ∧
    (smokeResult s tm).free = s.free ∧ (smokeResult s tm).pending = s.pending := by
  simp only [smokeResult]
  (repeat' split) <;> simp

@[simp] theorem smokeCap_keeps (s : State) (hmax : Nat) :
    (smokeCap s hmax).cli = s.cli ∧ (smokeCap s hmax).dsp = s.dsp ∧ (smokeCap s hmax).tbs = s.tbs ∧
    (smokeCap s hmax).trc = s.trc ∧ (smokeCap s hmax).mbr = s.mbr ∧ (smokeCap s hmax).msq = s.msq ∧
    (smokeCap s hmax).cam = s.cam ∧ (smokeCap s hmax).snd = s.snd ∧ (smokeCap s hmax).lmp = s.lmp ∧
    (smokeCap s hmax).ppm = s.ppm ∧ (smokeCap s hmax).store = s.store ∧ (smokeCap s hmax).samples = s.samples ∧
    (smokeCap s hmax).free = s.free ∧ (smokeCap s hmax).pending = s.pending := by
  simp only [smokeCap]
  (repeat' split) <;> simp

@[simp] theorem smokePower_keeps (s : State) (p : PowerState) :
    (smokePower s p).cli = s.cli ∧ (smokePower s p).dsp = s.dsp ∧ (smokePower s p).tbs = s.tbs ∧
    (smokePower s p).trc = s.trc ∧ (smokePower s p).mbr = s.mbr ∧ (smokePower s p).msq = s.msq ∧
    (smokePower s p).cam = s.cam ∧ (smokePower s p).snd = s.snd ∧ (smokePower s p).lmp = s.lmp ∧
    (smokePower s p).ppm = s.ppm ∧ (smokePower s p).store = s.store ∧ (smokePower s p).samples = s.samples ∧
    (smokePower s p).free = s.free ∧ (smokePower s p).pending = s.pending := by
  simp only [smokePower]
  (repeat' split) <;> simp

@[simp] theorem smokeChuff_keeps (s : State) :
    (smokeChuff s).cli = s.cli ∧ (smokeChuff s).dsp = s.dsp ∧ (smokeChuff s).tbs = s.tbs ∧
    (smokeChuff s).fnu = s.fnu ∧ (smokeChuff s).trc = s.trc ∧ (smokeChuff s).mbr = s.mbr ∧
    (smokeChuff s).msq = s.msq ∧ (smokeChuff s).cam = s.cam ∧ (smokeChuff s).snd = s.snd ∧
    (smokeChuff s).lmp = s.lmp ∧ (smokeChuff s).ppm = s.ppm ∧ (smokeChuff s).store = s.store ∧
    (smokeChuff s).samples = s.samples ∧ (smokeChuff s).free = s.free ∧ (smokeChuff s).pending = s.pending := by
  simp only [smokeChuff]
  (repeat' split) <;> simp

@[simp] theorem smokeRequestExpiry_keeps (s : State) :
    (smokeRequestExpiry s).cli = s.cli ∧ (smokeRequestExpiry s).dsp = s.dsp ∧ (smokeRequestExpiry s).tbs = s.tbs ∧
    (smokeRequestExpiry s).fnu = s.fnu ∧ (smokeRequestExpiry s).trc = s.trc ∧ (smokeRequestExpiry s).mbr = s.mbr ∧
    (smokeRequestExpiry s).cam = s.cam ∧ (smokeRequestExpiry s).snd = s.snd ∧ (smokeRequestExpiry s).lmp = s.lmp ∧
    (smokeRequestExpiry s).ppm = s.ppm ∧ (smokeRequestExpiry s).store = s.store ∧
    (smokeRequestExpiry s).samples = s.samples ∧ (smokeRequestExpiry s).free = s.free ∧
    (smokeRequestExpiry s).pending = s.pending := by
  simp only [smokeRequestExpiry]
  (repeat' split) <;> simp

@[simp] theorem smokeAgeExpiry_keeps (s : State) :
    (smokeAgeExpiry s).cli = s.cli ∧ (smokeAgeExpiry s).dsp = s.dsp ∧ (smokeAgeExpiry s).tbs = s.tbs ∧
    (smokeAgeExpiry s).fnu = s.fnu ∧ (smokeAgeExpiry s).trc = s.trc ∧ (smokeAgeExpiry s).mbr = s.mbr ∧
    (smokeAgeExpiry s).msq = s.msq ∧ (smokeAgeExpiry s).cam = s.cam ∧ (smokeAgeExpiry s).snd = s.snd ∧
    (smokeAgeExpiry s).lmp = s.lmp ∧ (smokeAgeExpiry s).ppm = s.ppm ∧ (smokeAgeExpiry s).store = s.store ∧
    (smokeAgeExpiry s).samples = s.samples ∧ (smokeAgeExpiry s).free = s.free ∧ (smokeAgeExpiry s).pending = s.pending := by
  simp only [smokeAgeExpiry]
  (repeat' split) <;> simp

@[simp] theorem puffExpiry_keeps (s : State) :
    (puffExpiry s).cli = s.cli ∧ (puffExpiry s).dsp = s.dsp ∧ (puffExpiry s).tbs = s.tbs ∧
    (puffExpiry s).fnu = s.fnu ∧ (puffExpiry s).trc = s.trc ∧ (puffExpiry s).mbr = s.mbr ∧
    (puffExpiry s).msq = s.msq ∧ (puffExpiry s).cam = s.cam ∧ (puffExpiry s).snd = s.snd ∧
    (puffExpiry s).lmp = s.lmp ∧ (puffExpiry s).ppm = s.ppm ∧ (puffExpiry s).store = s.store ∧
    (puffExpiry s).samples = s.samples ∧ (puffExpiry s).free = s.free ∧ (puffExpiry s).pending = s.pending := by
  simp only [puffExpiry]
  (repeat' split) <;> simp

@[simp] theorem setLamp_keeps (s : State) (n : Nat) (o : Lamp) :
    (setLamp s n o).cli = s.cli ∧ (setLamp s n o).dsp = s.dsp ∧ (setLamp s n o).tbs = s.tbs ∧
    (setLamp s n o).fnu = s.fnu ∧ (setLamp s n o).trc = s.trc ∧ (setLamp s n o).mbr = s.mbr ∧
    (setLamp s n o).msq = s.msq ∧ (setLamp s n o).cam = s.cam ∧ (setLamp s n o).snd = s.snd ∧
    (setLamp s n o).smk = s.smk ∧ (setLamp s n o).ppm = s.ppm ∧ (setLamp s n o).store = s.store ∧
    (setLamp s n o).samples = s.samples ∧ (setLamp s n o).free = s.free ∧ (setLamp s n o).pending = s.pending := by
  simp only [setLamp]
  simp

@[simp] theorem lampDemanded_keeps (s : State) (n : Nat) (d : Option LampDemand) :
    (lampDemanded s n d).cli = s.cli ∧ (lampDemanded s n d).dsp = s.dsp ∧ (lampDemanded s n d).tbs = s.tbs ∧
    (lampDemanded s n d).fnu = s.fnu ∧ (lampDemanded s n d).trc = s.trc ∧ (lampDemanded s n d).mbr = s.mbr ∧
    (lampDemanded s n d).msq = s.msq ∧ (lampDemanded s n d).cam = s.cam ∧ (lampDemanded s n d).snd = s.snd ∧
    (lampDemanded s n d).smk = s.smk ∧ (lampDemanded s n d).ppm = s.ppm ∧ (lampDemanded s n d).store = s.store ∧
    (lampDemanded s n d).samples = s.samples ∧ (lampDemanded s n d).free = s.free ∧
    (lampDemanded s n d).pending = s.pending := by
  simp only [lampDemanded]
  (repeat' split) <;> simp

@[simp] theorem lampsPower_keeps (s : State) (p : PowerState) :
    (lampsPower s p).cli = s.cli ∧ (lampsPower s p).dsp = s.dsp ∧ (lampsPower s p).tbs = s.tbs ∧
    (lampsPower s p).fnu = s.fnu ∧ (lampsPower s p).trc = s.trc ∧ (lampsPower s p).mbr = s.mbr ∧
    (lampsPower s p).msq = s.msq ∧ (lampsPower s p).cam = s.cam ∧ (lampsPower s p).snd = s.snd ∧
    (lampsPower s p).smk = s.smk ∧ (lampsPower s p).ppm = s.ppm ∧ (lampsPower s p).store = s.store ∧
    (lampsPower s p).samples = s.samples ∧ (lampsPower s p).free = s.free ∧ (lampsPower s p).pending = s.pending := by
  simp only [lampsPower]
  (repeat' split) <;> simp

@[simp] theorem lampsInstalled_keeps (s : State) :
    (lampsInstalled s).cli = s.cli ∧ (lampsInstalled s).dsp = s.dsp ∧ (lampsInstalled s).tbs = s.tbs ∧
    (lampsInstalled s).fnu = s.fnu ∧ (lampsInstalled s).trc = s.trc ∧ (lampsInstalled s).mbr = s.mbr ∧
    (lampsInstalled s).msq = s.msq ∧ (lampsInstalled s).cam = s.cam ∧ (lampsInstalled s).snd = s.snd ∧
    (lampsInstalled s).smk = s.smk ∧ (lampsInstalled s).ppm = s.ppm ∧ (lampsInstalled s).store = s.store ∧
    (lampsInstalled s).samples = s.samples ∧ (lampsInstalled s).free = s.free ∧ (lampsInstalled s).pending = s.pending := by
  simp only [lampsInstalled]
  (repeat' split) <;> simp

@[simp] theorem flickerStep_keeps (s : State) :
    (flickerStep s).cli = s.cli ∧ (flickerStep s).dsp = s.dsp ∧ (flickerStep s).tbs = s.tbs ∧
    (flickerStep s).fnu = s.fnu ∧ (flickerStep s).trc = s.trc ∧ (flickerStep s).mbr = s.mbr ∧
    (flickerStep s).msq = s.msq ∧ (flickerStep s).cam = s.cam ∧ (flickerStep s).snd = s.snd ∧
    (flickerStep s).smk = s.smk ∧ (flickerStep s).ppm = s.ppm ∧ (flickerStep s).store = s.store ∧
    (flickerStep s).samples = s.samples ∧ (flickerStep s).free = s.free ∧ (flickerStep s).pending = s.pending := by
  simp only [flickerStep]
  (repeat' split) <;> simp

@[simp] theorem blinkExpiry_keeps (s : State) (n : Nat) :
    (blinkExpiry s n).cli = s.cli ∧ (blinkExpiry s n).dsp = s.dsp ∧ (blinkExpiry s n).tbs = s.tbs ∧
    (blinkExpiry s n).fnu = s.fnu ∧ (blinkExpiry s n).trc = s.trc ∧ (blinkExpiry s n).mbr = s.mbr ∧
    (blinkExpiry s n).msq = s.msq ∧ (blinkExpiry s n).cam = s.cam ∧ (blinkExpiry s n).snd = s.snd ∧
    (blinkExpiry s n).smk = s.smk ∧ (blinkExpiry s n).ppm = s.ppm ∧ (blinkExpiry s n).store = s.store ∧
    (blinkExpiry s n).samples = s.samples ∧ (blinkExpiry s n).free = s.free ∧ (blinkExpiry s n).pending = s.pending := by
  simp only [blinkExpiry]
  (repeat' split) <;> simp

@[simp] theorem softExpiry_keeps (s : State) (n : Nat) :
    (softExpiry s n).cli = s.cli ∧ (softExpiry s n).dsp = s.dsp ∧ (softExpiry s n).tbs = s.tbs ∧
    (softExpiry s n).fnu = s.fnu ∧ (softExpiry s n).trc = s.trc ∧ (softExpiry s n).mbr = s.mbr ∧
    (softExpiry s n).msq = s.msq ∧ (softExpiry s n).cam = s.cam ∧ (softExpiry s n).snd = s.snd ∧
    (softExpiry s n).smk = s.smk ∧ (softExpiry s n).ppm = s.ppm ∧ (softExpiry s n).store = s.store ∧
    (softExpiry s n).samples = s.samples ∧ (softExpiry s n).free = s.free ∧ (softExpiry s n).pending = s.pending := by
  simp only [softExpiry]
  (repeat' split) <;> simp

@[simp] theorem engineWork_keeps (s : State) :
    (engineWork s).cli = s.cli ∧ (engineWork s).dsp = s.dsp ∧ (engineWork s).tbs = s.tbs ∧
    (engineWork s).fnu = s.fnu ∧ (engineWork s).trc = s.trc ∧ (engineWork s).mbr = s.mbr ∧
    (engineWork s).msq = s.msq ∧ (engineWork s).cam = s.cam ∧ (engineWork s).smk = s.smk ∧
    (engineWork s).lmp = s.lmp ∧ (engineWork s).ppm = s.ppm ∧ (engineWork s).store = s.store ∧
    (engineWork s).samples = s.samples ∧ (engineWork s).free = s.free ∧ (engineWork s).pending = s.pending := by
  simp only [engineWork]
  (repeat' split) <;> simp

@[simp] theorem soundMute_keeps (s : State) (on : Bool) :
    (soundMute s on).cli = s.cli ∧ (soundMute s on).dsp = s.dsp ∧ (soundMute s on).tbs = s.tbs ∧
    (soundMute s on).fnu = s.fnu ∧ (soundMute s on).trc = s.trc ∧ (soundMute s on).mbr = s.mbr ∧
    (soundMute s on).msq = s.msq ∧ (soundMute s on).cam = s.cam ∧ (soundMute s on).smk = s.smk ∧
    (soundMute s on).lmp = s.lmp ∧ (soundMute s on).ppm = s.ppm ∧ (soundMute s on).store = s.store ∧
    (soundMute s on).samples = s.samples ∧ (soundMute s on).free = s.free ∧ (soundMute s on).pending = s.pending := by
  simp only [soundMute]
  simp

@[simp] theorem soundPower_keeps (s : State) (p : PowerState) :
    (soundPower s p).cli = s.cli ∧ (soundPower s p).dsp = s.dsp ∧ (soundPower s p).tbs = s.tbs ∧
    (soundPower s p).fnu = s.fnu ∧ (soundPower s p).trc = s.trc ∧ (soundPower s p).mbr = s.mbr ∧
    (soundPower s p).msq = s.msq ∧ (soundPower s p).cam = s.cam ∧ (soundPower s p).smk = s.smk ∧
    (soundPower s p).lmp = s.lmp ∧ (soundPower s p).ppm = s.ppm ∧ (soundPower s p).store = s.store ∧
    (soundPower s p).samples = s.samples ∧ (soundPower s p).free = s.free ∧ (soundPower s p).pending = s.pending := by
  simp only [soundPower]
  simp

@[simp] theorem soundCapTaken_keeps (s : State) (cap : Nat) :
    (soundCapTaken s cap).cli = s.cli ∧ (soundCapTaken s cap).dsp = s.dsp ∧ (soundCapTaken s cap).tbs = s.tbs ∧
    (soundCapTaken s cap).fnu = s.fnu ∧ (soundCapTaken s cap).trc = s.trc ∧ (soundCapTaken s cap).mbr = s.mbr ∧
    (soundCapTaken s cap).msq = s.msq ∧ (soundCapTaken s cap).cam = s.cam ∧ (soundCapTaken s cap).smk = s.smk ∧
    (soundCapTaken s cap).lmp = s.lmp ∧ (soundCapTaken s cap).ppm = s.ppm ∧ (soundCapTaken s cap).store = s.store ∧
    (soundCapTaken s cap).samples = s.samples ∧ (soundCapTaken s cap).free = s.free ∧
    (soundCapTaken s cap).pending = s.pending := by
  simp only [soundCapTaken]
  simp

@[simp] theorem cuesInstalled_keeps (s : State) :
    (cuesInstalled s).cli = s.cli ∧ (cuesInstalled s).dsp = s.dsp ∧ (cuesInstalled s).tbs = s.tbs ∧
    (cuesInstalled s).fnu = s.fnu ∧ (cuesInstalled s).trc = s.trc ∧ (cuesInstalled s).mbr = s.mbr ∧
    (cuesInstalled s).msq = s.msq ∧ (cuesInstalled s).cam = s.cam ∧ (cuesInstalled s).smk = s.smk ∧
    (cuesInstalled s).lmp = s.lmp ∧ (cuesInstalled s).ppm = s.ppm ∧ (cuesInstalled s).store = s.store ∧
    (cuesInstalled s).samples = s.samples ∧ (cuesInstalled s).free = s.free ∧ (cuesInstalled s).pending = s.pending := by
  simp only [cuesInstalled]
  (repeat' split) <;> simp

@[simp] theorem soundChuff_keeps (s : State) (index : Nat) :
    (soundChuff s index).cli = s.cli ∧ (soundChuff s index).dsp = s.dsp ∧ (soundChuff s index).tbs = s.tbs ∧
    (soundChuff s index).fnu = s.fnu ∧ (soundChuff s index).trc = s.trc ∧ (soundChuff s index).mbr = s.mbr ∧
    (soundChuff s index).msq = s.msq ∧ (soundChuff s index).cam = s.cam ∧ (soundChuff s index).smk = s.smk ∧
    (soundChuff s index).lmp = s.lmp ∧ (soundChuff s index).ppm = s.ppm ∧ (soundChuff s index).store = s.store ∧
    (soundChuff s index).samples = s.samples ∧ (soundChuff s index).free = s.free ∧
    (soundChuff s index).pending = s.pending := by
  simp only [soundChuff]
  (repeat' split) <;> simp

@[simp] theorem poolStart_keeps (s : State) (place c position : Nat) (held : Bool) :
    (poolStart s place c position held).cli = s.cli ∧ (poolStart s place c position held).dsp = s.dsp ∧
    (poolStart s place c position held).tbs = s.tbs ∧ (poolStart s place c position held).fnu = s.fnu ∧
    (poolStart s place c position held).trc = s.trc ∧ (poolStart s place c position held).mbr = s.mbr ∧
    (poolStart s place c position held).msq = s.msq ∧ (poolStart s place c position held).cam = s.cam ∧
    (poolStart s place c position held).smk = s.smk ∧ (poolStart s place c position held).lmp = s.lmp ∧
    (poolStart s place c position held).ppm = s.ppm ∧ (poolStart s place c position held).store = s.store ∧
    (poolStart s place c position held).samples = s.samples ∧ (poolStart s place c position held).free = s.free ∧
    (poolStart s place c position held).pending = s.pending := by
  simp only [poolStart]
  simp

@[simp] theorem pushPreempted_keeps (s : State) (v : Voice) :
    (pushPreempted s v).cli = s.cli ∧ (pushPreempted s v).dsp = s.dsp ∧ (pushPreempted s v).tbs = s.tbs ∧
    (pushPreempted s v).fnu = s.fnu ∧ (pushPreempted s v).trc = s.trc ∧ (pushPreempted s v).mbr = s.mbr ∧
    (pushPreempted s v).msq = s.msq ∧ (pushPreempted s v).cam = s.cam ∧ (pushPreempted s v).smk = s.smk ∧
    (pushPreempted s v).lmp = s.lmp ∧ (pushPreempted s v).ppm = s.ppm ∧ (pushPreempted s v).store = s.store ∧
    (pushPreempted s v).samples = s.samples ∧ (pushPreempted s v).free = s.free ∧
    (pushPreempted s v).pending = s.pending := by
  simp only [pushPreempted]
  (repeat' split) <;> simp

@[simp] theorem poolContest_keeps (s : State) (c : Nat) :
    (poolContest s c).cli = s.cli ∧ (poolContest s c).dsp = s.dsp ∧ (poolContest s c).tbs = s.tbs ∧
    (poolContest s c).fnu = s.fnu ∧ (poolContest s c).trc = s.trc ∧ (poolContest s c).mbr = s.mbr ∧
    (poolContest s c).msq = s.msq ∧ (poolContest s c).cam = s.cam ∧ (poolContest s c).smk = s.smk ∧
    (poolContest s c).lmp = s.lmp ∧ (poolContest s c).ppm = s.ppm ∧ (poolContest s c).store = s.store ∧
    (poolContest s c).samples = s.samples ∧ (poolContest s c).free = s.free ∧ (poolContest s c).pending = s.pending := by
  simp only [poolContest]
  (repeat' split) <;> simp

@[simp] theorem poolPlace_keeps (s : State) (c : Nat) :
    (poolPlace s c).cli = s.cli ∧ (poolPlace s c).dsp = s.dsp ∧ (poolPlace s c).tbs = s.tbs ∧
    (poolPlace s c).fnu = s.fnu ∧ (poolPlace s c).trc = s.trc ∧ (poolPlace s c).mbr = s.mbr ∧
    (poolPlace s c).msq = s.msq ∧ (poolPlace s c).cam = s.cam ∧ (poolPlace s c).smk = s.smk ∧
    (poolPlace s c).lmp = s.lmp ∧ (poolPlace s c).ppm = s.ppm ∧ (poolPlace s c).store = s.store ∧
    (poolPlace s c).samples = s.samples ∧ (poolPlace s c).free = s.free ∧ (poolPlace s c).pending = s.pending := by
  simp only [poolPlace]
  (repeat' split) <;> simp

@[simp] theorem soundTrigger_keeps (s : State) (c : Nat) :
    (soundTrigger s c).cli = s.cli ∧ (soundTrigger s c).dsp = s.dsp ∧ (soundTrigger s c).tbs = s.tbs ∧
    (soundTrigger s c).fnu = s.fnu ∧ (soundTrigger s c).trc = s.trc ∧ (soundTrigger s c).mbr = s.mbr ∧
    (soundTrigger s c).msq = s.msq ∧ (soundTrigger s c).cam = s.cam ∧ (soundTrigger s c).smk = s.smk ∧
    (soundTrigger s c).lmp = s.lmp ∧ (soundTrigger s c).ppm = s.ppm ∧ (soundTrigger s c).store = s.store ∧
    (soundTrigger s c).samples = s.samples ∧ (soundTrigger s c).free = s.free ∧ (soundTrigger s c).pending = s.pending := by
  simp only [soundTrigger]
  (repeat' split) <;> simp

@[simp] theorem soundRelease_keeps (s : State) (c : Nat) :
    (soundRelease s c).cli = s.cli ∧ (soundRelease s c).dsp = s.dsp ∧ (soundRelease s c).tbs = s.tbs ∧
    (soundRelease s c).fnu = s.fnu ∧ (soundRelease s c).trc = s.trc ∧ (soundRelease s c).mbr = s.mbr ∧
    (soundRelease s c).msq = s.msq ∧ (soundRelease s c).cam = s.cam ∧ (soundRelease s c).smk = s.smk ∧
    (soundRelease s c).lmp = s.lmp ∧ (soundRelease s c).ppm = s.ppm ∧ (soundRelease s c).store = s.store ∧
    (soundRelease s c).samples = s.samples ∧ (soundRelease s c).free = s.free ∧ (soundRelease s c).pending = s.pending := by
  simp only [soundRelease]
  (repeat' split) <;> simp

@[simp] theorem chuffAdvance_keeps (s : State) :
    (chuffAdvance s).cli = s.cli ∧ (chuffAdvance s).dsp = s.dsp ∧ (chuffAdvance s).tbs = s.tbs ∧
    (chuffAdvance s).fnu = s.fnu ∧ (chuffAdvance s).trc = s.trc ∧ (chuffAdvance s).mbr = s.mbr ∧
    (chuffAdvance s).msq = s.msq ∧ (chuffAdvance s).cam = s.cam ∧ (chuffAdvance s).smk = s.smk ∧
    (chuffAdvance s).lmp = s.lmp ∧ (chuffAdvance s).ppm = s.ppm ∧ (chuffAdvance s).store = s.store ∧
    (chuffAdvance s).samples = s.samples ∧ (chuffAdvance s).free = s.free ∧ (chuffAdvance s).pending = s.pending := by
  simp only [chuffAdvance]
  (repeat' split) <;> simp

@[simp] theorem backgroundAdvance_keeps (s : State) :
    (backgroundAdvance s).cli = s.cli ∧ (backgroundAdvance s).dsp = s.dsp ∧ (backgroundAdvance s).tbs = s.tbs ∧
    (backgroundAdvance s).fnu = s.fnu ∧ (backgroundAdvance s).trc = s.trc ∧ (backgroundAdvance s).mbr = s.mbr ∧
    (backgroundAdvance s).msq = s.msq ∧ (backgroundAdvance s).cam = s.cam ∧ (backgroundAdvance s).smk = s.smk ∧
    (backgroundAdvance s).lmp = s.lmp ∧ (backgroundAdvance s).ppm = s.ppm ∧ (backgroundAdvance s).store = s.store ∧
    (backgroundAdvance s).samples = s.samples ∧ (backgroundAdvance s).free = s.free ∧
    (backgroundAdvance s).pending = s.pending := by
  simp only [backgroundAdvance]
  (repeat' split) <;> simp

@[simp] theorem poolFallsFree_keeps (s : State) (place : Nat) :
    (poolFallsFree s place).cli = s.cli ∧ (poolFallsFree s place).dsp = s.dsp ∧ (poolFallsFree s place).tbs = s.tbs ∧
    (poolFallsFree s place).fnu = s.fnu ∧ (poolFallsFree s place).trc = s.trc ∧ (poolFallsFree s place).mbr = s.mbr ∧
    (poolFallsFree s place).msq = s.msq ∧ (poolFallsFree s place).cam = s.cam ∧ (poolFallsFree s place).smk = s.smk ∧
    (poolFallsFree s place).lmp = s.lmp ∧ (poolFallsFree s place).ppm = s.ppm ∧
    (poolFallsFree s place).store = s.store ∧ (poolFallsFree s place).samples = s.samples ∧
    (poolFallsFree s place).free = s.free ∧ (poolFallsFree s place).pending = s.pending := by
  simp only [poolFallsFree]
  (repeat' split) <;> simp

@[simp] theorem poolFinished_keeps (s : State) (place : Nat) (v : Voice) (next : Option Nat) :
    (poolFinished s place v next).cli = s.cli ∧ (poolFinished s place v next).dsp = s.dsp ∧
    (poolFinished s place v next).tbs = s.tbs ∧ (poolFinished s place v next).fnu = s.fnu ∧
    (poolFinished s place v next).trc = s.trc ∧ (poolFinished s place v next).mbr = s.mbr ∧
    (poolFinished s place v next).msq = s.msq ∧ (poolFinished s place v next).cam = s.cam ∧
    (poolFinished s place v next).smk = s.smk ∧ (poolFinished s place v next).lmp = s.lmp ∧
    (poolFinished s place v next).ppm = s.ppm ∧ (poolFinished s place v next).store = s.store ∧
    (poolFinished s place v next).samples = s.samples ∧ (poolFinished s place v next).free = s.free ∧
    (poolFinished s place v next).pending = s.pending := by
  simp only [poolFinished]
  (repeat' split) <;> simp

@[simp] theorem poolAdvance_keeps (s : State) (place : Nat) :
    (poolAdvance s place).cli = s.cli ∧ (poolAdvance s place).dsp = s.dsp ∧ (poolAdvance s place).tbs = s.tbs ∧
    (poolAdvance s place).fnu = s.fnu ∧ (poolAdvance s place).trc = s.trc ∧ (poolAdvance s place).mbr = s.mbr ∧
    (poolAdvance s place).msq = s.msq ∧ (poolAdvance s place).cam = s.cam ∧ (poolAdvance s place).smk = s.smk ∧
    (poolAdvance s place).lmp = s.lmp ∧ (poolAdvance s place).ppm = s.ppm ∧ (poolAdvance s place).store = s.store ∧
    (poolAdvance s place).samples = s.samples ∧ (poolAdvance s place).free = s.free ∧
    (poolAdvance s place).pending = s.pending := by
  simp only [poolAdvance]
  (repeat' split) <;> simp

@[simp] theorem voicesAdvance_keeps (s : State) :
    (voicesAdvance s).cli = s.cli ∧ (voicesAdvance s).dsp = s.dsp ∧ (voicesAdvance s).tbs = s.tbs ∧
    (voicesAdvance s).fnu = s.fnu ∧ (voicesAdvance s).trc = s.trc ∧ (voicesAdvance s).mbr = s.mbr ∧
    (voicesAdvance s).msq = s.msq ∧ (voicesAdvance s).cam = s.cam ∧ (voicesAdvance s).smk = s.smk ∧
    (voicesAdvance s).lmp = s.lmp ∧ (voicesAdvance s).ppm = s.ppm ∧ (voicesAdvance s).store = s.store ∧
    (voicesAdvance s).samples = s.samples ∧ (voicesAdvance s).free = s.free ∧ (voicesAdvance s).pending = s.pending := by
  simp only [voicesAdvance]
  simp

@[simp] theorem backgroundTakenUp_keeps (s : State) :
    (backgroundTakenUp s).cli = s.cli ∧ (backgroundTakenUp s).dsp = s.dsp ∧ (backgroundTakenUp s).tbs = s.tbs ∧
    (backgroundTakenUp s).fnu = s.fnu ∧ (backgroundTakenUp s).trc = s.trc ∧ (backgroundTakenUp s).mbr = s.mbr ∧
    (backgroundTakenUp s).msq = s.msq ∧ (backgroundTakenUp s).cam = s.cam ∧ (backgroundTakenUp s).smk = s.smk ∧
    (backgroundTakenUp s).lmp = s.lmp ∧ (backgroundTakenUp s).ppm = s.ppm ∧ (backgroundTakenUp s).store = s.store ∧
    (backgroundTakenUp s).samples = s.samples ∧ (backgroundTakenUp s).free = s.free ∧
    (backgroundTakenUp s).pending = s.pending := by
  simp only [backgroundTakenUp]
  (repeat' split) <;> simp

@[simp] theorem outputSampled_keeps (s : State) (inTime : BitVec 6) :
    (outputSampled s inTime).cli = s.cli ∧ (outputSampled s inTime).dsp = s.dsp ∧
    (outputSampled s inTime).tbs = s.tbs ∧ (outputSampled s inTime).fnu = s.fnu ∧
    (outputSampled s inTime).trc = s.trc ∧ (outputSampled s inTime).mbr = s.mbr ∧
    (outputSampled s inTime).msq = s.msq ∧ (outputSampled s inTime).cam = s.cam ∧
    (outputSampled s inTime).smk = s.smk ∧ (outputSampled s inTime).lmp = s.lmp ∧
    (outputSampled s inTime).ppm = s.ppm ∧ (outputSampled s inTime).store = s.store ∧
    (outputSampled s inTime).samples = s.samples ∧ (outputSampled s inTime).free = s.free ∧
    (outputSampled s inTime).pending = s.pending := by
  simp only [outputSampled]
  (repeat' split) <;> simp

@[simp] theorem eraseDone_keeps (s : State) :
    (eraseDone s).cli = s.cli ∧ (eraseDone s).dsp = s.dsp ∧ (eraseDone s).tbs = s.tbs ∧ (eraseDone s).fnu = s.fnu ∧
    (eraseDone s).trc = s.trc ∧ (eraseDone s).mbr = s.mbr ∧ (eraseDone s).msq = s.msq ∧ (eraseDone s).cam = s.cam ∧
    (eraseDone s).smk = s.smk ∧ (eraseDone s).lmp = s.lmp ∧ (eraseDone s).ppm = s.ppm ∧
    (eraseDone s).store = s.store ∧ (eraseDone s).free = s.free ∧ (eraseDone s).pending = s.pending := by
  simp only [eraseDone]
  (repeat' split) <;> simp

@[simp] theorem programDone_keeps (s : State) :
    (programDone s).cli = s.cli ∧ (programDone s).dsp = s.dsp ∧ (programDone s).tbs = s.tbs ∧
    (programDone s).fnu = s.fnu ∧ (programDone s).trc = s.trc ∧ (programDone s).mbr = s.mbr ∧
    (programDone s).msq = s.msq ∧ (programDone s).cam = s.cam ∧ (programDone s).smk = s.smk ∧
    (programDone s).lmp = s.lmp ∧ (programDone s).ppm = s.ppm ∧ (programDone s).store = s.store ∧
    (programDone s).free = s.free ∧ (programDone s).pending = s.pending := by
  simp only [programDone]
  (repeat' split) <;> simp

@[simp] theorem sampleInterrupted_keeps (s : State) :
    (sampleInterrupted s).cli = s.cli ∧ (sampleInterrupted s).dsp = s.dsp ∧ (sampleInterrupted s).tbs = s.tbs ∧
    (sampleInterrupted s).fnu = s.fnu ∧ (sampleInterrupted s).trc = s.trc ∧ (sampleInterrupted s).mbr = s.mbr ∧
    (sampleInterrupted s).msq = s.msq ∧ (sampleInterrupted s).cam = s.cam ∧ (sampleInterrupted s).snd = s.snd ∧
    (sampleInterrupted s).smk = s.smk ∧ (sampleInterrupted s).lmp = s.lmp ∧ (sampleInterrupted s).ppm = s.ppm ∧
    (sampleInterrupted s).store = s.store ∧ (sampleInterrupted s).pending = s.pending := by
  simp only [sampleInterrupted]
  (repeat' split) <;> simp

@[simp] theorem camReads_keeps (s : State) (now : Nat) :
    (camReads s now).cli = s.cli ∧ (camReads s now).dsp = s.dsp ∧ (camReads s now).tbs = s.tbs ∧
    (camReads s now).fnu = s.fnu ∧ (camReads s now).trc = s.trc ∧ (camReads s now).mbr = s.mbr ∧
    (camReads s now).msq = s.msq ∧ (camReads s now).snd = s.snd ∧ (camReads s now).smk = s.smk ∧
    (camReads s now).lmp = s.lmp ∧ (camReads s now).ppm = s.ppm ∧ (camReads s now).store = s.store ∧
    (camReads s now).samples = s.samples ∧ (camReads s now).free = s.free ∧ (camReads s now).pending = s.pending := by
  simp only [camReads]
  simp

@[simp] theorem silenceTested_keeps (s : State) (now : Nat) :
    (silenceTested s now).cli = s.cli ∧ (silenceTested s now).dsp = s.dsp ∧ (silenceTested s now).tbs = s.tbs ∧
    (silenceTested s now).fnu = s.fnu ∧ (silenceTested s now).trc = s.trc ∧ (silenceTested s now).mbr = s.mbr ∧
    (silenceTested s now).msq = s.msq ∧ (silenceTested s now).snd = s.snd ∧ (silenceTested s now).smk = s.smk ∧
    (silenceTested s now).lmp = s.lmp ∧ (silenceTested s now).ppm = s.ppm ∧ (silenceTested s now).store = s.store ∧
    (silenceTested s now).samples = s.samples ∧ (silenceTested s now).free = s.free ∧
    (silenceTested s now).pending = s.pending := by
  simp only [silenceTested]
  (repeat' split) <;> simp

@[simp] theorem sourceDecided_keeps (s : State) :
    (sourceDecided s).cli = s.cli ∧ (sourceDecided s).dsp = s.dsp ∧ (sourceDecided s).tbs = s.tbs ∧
    (sourceDecided s).fnu = s.fnu ∧ (sourceDecided s).trc = s.trc ∧ (sourceDecided s).mbr = s.mbr ∧
    (sourceDecided s).msq = s.msq ∧ (sourceDecided s).snd = s.snd ∧ (sourceDecided s).smk = s.smk ∧
    (sourceDecided s).lmp = s.lmp ∧ (sourceDecided s).ppm = s.ppm ∧ (sourceDecided s).store = s.store ∧
    (sourceDecided s).samples = s.samples ∧ (sourceDecided s).free = s.free ∧ (sourceDecided s).pending = s.pending := by
  simp only [sourceDecided]
  (repeat' split) <;> simp

@[simp] theorem chuffEmitted_keeps (s : State) :
    (chuffEmitted s).cli = s.cli ∧ (chuffEmitted s).dsp = s.dsp ∧ (chuffEmitted s).tbs = s.tbs ∧
    (chuffEmitted s).fnu = s.fnu ∧ (chuffEmitted s).trc = s.trc ∧ (chuffEmitted s).mbr = s.mbr ∧
    (chuffEmitted s).msq = s.msq ∧ (chuffEmitted s).lmp = s.lmp ∧ (chuffEmitted s).ppm = s.ppm ∧
    (chuffEmitted s).store = s.store ∧ (chuffEmitted s).samples = s.samples ∧ (chuffEmitted s).free = s.free ∧
    (chuffEmitted s).pending = s.pending := by
  simp only [chuffEmitted]
  simp

@[simp] theorem phaseAdvanced_keeps (s : State) :
    (phaseAdvanced s).cli = s.cli ∧ (phaseAdvanced s).dsp = s.dsp ∧ (phaseAdvanced s).tbs = s.tbs ∧
    (phaseAdvanced s).fnu = s.fnu ∧ (phaseAdvanced s).trc = s.trc ∧ (phaseAdvanced s).mbr = s.mbr ∧
    (phaseAdvanced s).msq = s.msq ∧ (phaseAdvanced s).snd = s.snd ∧ (phaseAdvanced s).smk = s.smk ∧
    (phaseAdvanced s).lmp = s.lmp ∧ (phaseAdvanced s).ppm = s.ppm ∧ (phaseAdvanced s).store = s.store ∧
    (phaseAdvanced s).samples = s.samples ∧ (phaseAdvanced s).free = s.free ∧ (phaseAdvanced s).pending = s.pending := by
  simp only [phaseAdvanced]
  (repeat' split) <;> simp

@[simp] theorem virtualStep_keeps (s : State) :
    (virtualStep s).cli = s.cli ∧ (virtualStep s).dsp = s.dsp ∧ (virtualStep s).tbs = s.tbs ∧
    (virtualStep s).fnu = s.fnu ∧ (virtualStep s).trc = s.trc ∧ (virtualStep s).mbr = s.mbr ∧
    (virtualStep s).msq = s.msq ∧ (virtualStep s).lmp = s.lmp ∧ (virtualStep s).ppm = s.ppm ∧
    (virtualStep s).store = s.store ∧ (virtualStep s).samples = s.samples ∧ (virtualStep s).free = s.free ∧
    (virtualStep s).pending = s.pending := by
  simp only [virtualStep]
  (repeat' split) <;> simp

@[simp] theorem tickTimed_keeps (s : State) :
    (tickTimed s).cli = s.cli ∧ (tickTimed s).dsp = s.dsp ∧ (tickTimed s).tbs = s.tbs ∧ (tickTimed s).fnu = s.fnu ∧
    (tickTimed s).trc = s.trc ∧ (tickTimed s).mbr = s.mbr ∧ (tickTimed s).msq = s.msq ∧ (tickTimed s).snd = s.snd ∧
    (tickTimed s).smk = s.smk ∧ (tickTimed s).lmp = s.lmp ∧ (tickTimed s).ppm = s.ppm ∧
    (tickTimed s).store = s.store ∧ (tickTimed s).samples = s.samples ∧ (tickTimed s).free = s.free ∧
    (tickTimed s).pending = s.pending := by
  simp only [tickTimed]
  simp

@[simp] theorem tickRead_keeps (s : State) :
    (tickRead s).cli = s.cli ∧ (tickRead s).dsp = s.dsp ∧ (tickRead s).tbs = s.tbs ∧ (tickRead s).fnu = s.fnu ∧
    (tickRead s).trc = s.trc ∧ (tickRead s).mbr = s.mbr ∧ (tickRead s).msq = s.msq ∧ (tickRead s).snd = s.snd ∧
    (tickRead s).smk = s.smk ∧ (tickRead s).lmp = s.lmp ∧ (tickRead s).ppm = s.ppm ∧ (tickRead s).store = s.store ∧
    (tickRead s).samples = s.samples ∧ (tickRead s).free = s.free ∧ (tickRead s).pending = s.pending := by
  simp only [tickRead]
  simp

@[simp] theorem tickDecided_keeps (s : State) :
    (tickDecided s).cli = s.cli ∧ (tickDecided s).dsp = s.dsp ∧ (tickDecided s).tbs = s.tbs ∧
    (tickDecided s).fnu = s.fnu ∧ (tickDecided s).trc = s.trc ∧ (tickDecided s).mbr = s.mbr ∧
    (tickDecided s).msq = s.msq ∧ (tickDecided s).snd = s.snd ∧ (tickDecided s).smk = s.smk ∧
    (tickDecided s).lmp = s.lmp ∧ (tickDecided s).ppm = s.ppm ∧ (tickDecided s).store = s.store ∧
    (tickDecided s).samples = s.samples ∧ (tickDecided s).free = s.free ∧ (tickDecided s).pending = s.pending := by
  simp only [tickDecided]
  simp

@[simp] theorem camTick_keeps (s : State) :
    (camTick s).cli = s.cli ∧ (camTick s).dsp = s.dsp ∧ (camTick s).tbs = s.tbs ∧ (camTick s).fnu = s.fnu ∧
    (camTick s).trc = s.trc ∧ (camTick s).mbr = s.mbr ∧ (camTick s).msq = s.msq ∧ (camTick s).lmp = s.lmp ∧
    (camTick s).ppm = s.ppm ∧ (camTick s).store = s.store ∧ (camTick s).samples = s.samples ∧
    (camTick s).free = s.free ∧ (camTick s).pending = s.pending := by
  simp only [camTick]
  (repeat' split) <;> simp

@[simp] theorem edgeAccepted_keeps (s : State) (now : Nat) :
    (edgeAccepted s now).cli = s.cli ∧ (edgeAccepted s now).dsp = s.dsp ∧ (edgeAccepted s now).tbs = s.tbs ∧
    (edgeAccepted s now).fnu = s.fnu ∧ (edgeAccepted s now).trc = s.trc ∧ (edgeAccepted s now).mbr = s.mbr ∧
    (edgeAccepted s now).msq = s.msq ∧ (edgeAccepted s now).lmp = s.lmp ∧ (edgeAccepted s now).ppm = s.ppm ∧
    (edgeAccepted s now).store = s.store ∧ (edgeAccepted s now).samples = s.samples ∧
    (edgeAccepted s now).free = s.free ∧ (edgeAccepted s now).pending = s.pending := by
  simp only [edgeAccepted]
  (repeat' split) <;> simp

@[simp] theorem camEdge_keeps (s : State) (now : Nat) :
    (camEdge s now).cli = s.cli ∧ (camEdge s now).dsp = s.dsp ∧ (camEdge s now).tbs = s.tbs ∧
    (camEdge s now).fnu = s.fnu ∧ (camEdge s now).trc = s.trc ∧ (camEdge s now).mbr = s.mbr ∧
    (camEdge s now).msq = s.msq ∧ (camEdge s now).lmp = s.lmp ∧ (camEdge s now).ppm = s.ppm ∧
    (camEdge s now).store = s.store ∧ (camEdge s now).samples = s.samples ∧ (camEdge s now).free = s.free ∧
    (camEdge s now).pending = s.pending := by
  simp only [camEdge]
  (repeat' split) <;> simp

@[simp] theorem scanExpires_keeps (s : State) :
    (scanExpires s).cli = s.cli ∧ (scanExpires s).dsp = s.dsp ∧ (scanExpires s).tbs = s.tbs ∧
    (scanExpires s).fnu = s.fnu ∧ (scanExpires s).trc = s.trc ∧ (scanExpires s).mbr = s.mbr ∧
    (scanExpires s).cam = s.cam ∧ (scanExpires s).snd = s.snd ∧ (scanExpires s).smk = s.smk ∧
    (scanExpires s).lmp = s.lmp ∧ (scanExpires s).ppm = s.ppm ∧ (scanExpires s).store = s.store ∧
    (scanExpires s).samples = s.samples ∧ (scanExpires s).free = s.free ∧ (scanExpires s).pending = s.pending := by
  simp only [scanExpires]
  (repeat' split) <;> simp

end Sys2Proof.Machine
end

