-- ==== Sys2Proof/Laws/FunctionKeeps.lean ====
section
/-!
SUPPORT. One lemma an operation: what each operation of the function unit leaves as it was. Each conjunct is a rewriting rule of `simp`.
-/
namespace Sys2Proof.Machine

@[simp] theorem setDelivered_keeps (s : State) (o : Outputs) :
    (setDelivered s o).cli = s.cli ∧ (setDelivered s o).dsp = s.dsp ∧ (setDelivered s o).tbs = s.tbs ∧
    (setDelivered s o).trc = s.trc ∧ (setDelivered s o).mbr = s.mbr ∧ (setDelivered s o).msq = s.msq ∧
    (setDelivered s o).cam = s.cam ∧ (setDelivered s o).snd = s.snd ∧ (setDelivered s o).smk = s.smk ∧
    (setDelivered s o).lmp = s.lmp ∧ (setDelivered s o).ppm = s.ppm ∧ (setDelivered s o).store = s.store ∧
    (setDelivered s o).samples = s.samples ∧ (setDelivered s o).free = s.free ∧ (setDelivered s o).pending = s.pending := by
  simp only [setDelivered]
  simp

@[simp] theorem deliverLamp_keeps (new : Outputs) (n : Nat) (s : State) :
    (deliverLamp new n s).cli = s.cli ∧ (deliverLamp new n s).dsp = s.dsp ∧ (deliverLamp new n s).tbs = s.tbs ∧
    (deliverLamp new n s).trc = s.trc ∧ (deliverLamp new n s).mbr = s.mbr ∧ (deliverLamp new n s).msq = s.msq ∧
    (deliverLamp new n s).cam = s.cam ∧ (deliverLamp new n s).snd = s.snd ∧ (deliverLamp new n s).smk = s.smk ∧
    (deliverLamp new n s).ppm = s.ppm ∧ (deliverLamp new n s).store = s.store ∧
    (deliverLamp new n s).samples = s.samples ∧ (deliverLamp new n s).free = s.free ∧
    (deliverLamp new n s).pending = s.pending := by
  simp only [deliverLamp]
  (repeat' split) <;> simp

@[simp] theorem deliverSmoke_keeps (new : Outputs) (s : State) :
    (deliverSmoke new s).cli = s.cli ∧ (deliverSmoke new s).dsp = s.dsp ∧ (deliverSmoke new s).tbs = s.tbs ∧
    (deliverSmoke new s).trc = s.trc ∧ (deliverSmoke new s).mbr = s.mbr ∧ (deliverSmoke new s).cam = s.cam ∧
    (deliverSmoke new s).snd = s.snd ∧ (deliverSmoke new s).lmp = s.lmp ∧ (deliverSmoke new s).ppm = s.ppm ∧
    (deliverSmoke new s).store = s.store ∧ (deliverSmoke new s).samples = s.samples ∧
    (deliverSmoke new s).free = s.free ∧ (deliverSmoke new s).pending = s.pending := by
  simp only [deliverSmoke]
  (repeat' split) <;> simp

@[simp] theorem deliverMute_keeps (new : Outputs) (s : State) :
    (deliverMute new s).cli = s.cli ∧ (deliverMute new s).dsp = s.dsp ∧ (deliverMute new s).tbs = s.tbs ∧
    (deliverMute new s).trc = s.trc ∧ (deliverMute new s).mbr = s.mbr ∧ (deliverMute new s).msq = s.msq ∧
    (deliverMute new s).cam = s.cam ∧ (deliverMute new s).smk = s.smk ∧ (deliverMute new s).lmp = s.lmp ∧
    (deliverMute new s).ppm = s.ppm ∧ (deliverMute new s).store = s.store ∧ (deliverMute new s).samples = s.samples ∧
    (deliverMute new s).free = s.free ∧ (deliverMute new s).pending = s.pending := by
  simp only [deliverMute]
  (repeat' split) <;> simp

@[simp] theorem deliverShunt_keeps (new : Outputs) (s : State) :
    (deliverShunt new s).cli = s.cli ∧ (deliverShunt new s).dsp = s.dsp ∧ (deliverShunt new s).tbs = s.tbs ∧
    (deliverShunt new s).cam = s.cam ∧ (deliverShunt new s).snd = s.snd ∧ (deliverShunt new s).smk = s.smk ∧
    (deliverShunt new s).lmp = s.lmp ∧ (deliverShunt new s).ppm = s.ppm ∧ (deliverShunt new s).store = s.store ∧
    (deliverShunt new s).samples = s.samples ∧ (deliverShunt new s).free = s.free ∧
    (deliverShunt new s).pending = s.pending := by
  simp only [deliverShunt]
  (repeat' split) <;> simp

@[simp] theorem deliverMomentum_keeps (new : Outputs) (s : State) :
    (deliverMomentum new s).cli = s.cli ∧ (deliverMomentum new s).dsp = s.dsp ∧ (deliverMomentum new s).tbs = s.tbs ∧
    (deliverMomentum new s).mbr = s.mbr ∧ (deliverMomentum new s).msq = s.msq ∧ (deliverMomentum new s).cam = s.cam ∧
    (deliverMomentum new s).snd = s.snd ∧ (deliverMomentum new s).smk = s.smk ∧ (deliverMomentum new s).lmp = s.lmp ∧
    (deliverMomentum new s).ppm = s.ppm ∧ (deliverMomentum new s).store = s.store ∧
    (deliverMomentum new s).samples = s.samples ∧ (deliverMomentum new s).free = s.free ∧
    (deliverMomentum new s).pending = s.pending := by
  simp only [deliverMomentum]
  (repeat' split) <;> simp

@[simp] theorem deliverEntry_keeps (new : Outputs) (e : MapEntry) (on : Bool) (s : State) :
    (deliverEntry new e on s).cli = s.cli ∧ (deliverEntry new e on s).dsp = s.dsp ∧
    (deliverEntry new e on s).tbs = s.tbs ∧ (deliverEntry new e on s).cam = s.cam ∧
    (deliverEntry new e on s).ppm = s.ppm ∧ (deliverEntry new e on s).store = s.store ∧
    (deliverEntry new e on s).samples = s.samples ∧ (deliverEntry new e on s).free = s.free ∧
    (deliverEntry new e on s).pending = s.pending := by
  simp only [deliverEntry]
  (repeat' split) <;> simp

@[simp] theorem keepActivity_keeps (s : State) (a : List Bool) :
    (keepActivity s a).cli = s.cli ∧ (keepActivity s a).dsp = s.dsp ∧ (keepActivity s a).tbs = s.tbs ∧
    (keepActivity s a).trc = s.trc ∧ (keepActivity s a).mbr = s.mbr ∧ (keepActivity s a).msq = s.msq ∧
    (keepActivity s a).cam = s.cam ∧ (keepActivity s a).snd = s.snd ∧ (keepActivity s a).smk = s.smk ∧
    (keepActivity s a).lmp = s.lmp ∧ (keepActivity s a).ppm = s.ppm ∧ (keepActivity s a).store = s.store ∧
    (keepActivity s a).samples = s.samples ∧ (keepActivity s a).free = s.free ∧ (keepActivity s a).pending = s.pending := by
  simp only [keepActivity]
  simp

@[simp] theorem walk_keeps (new : Outputs) (entries : List (MapEntry × Bool × Bool)) (s : State) :
    (walk new entries s).cli = s.cli ∧ (walk new entries s).dsp = s.dsp ∧ (walk new entries s).tbs = s.tbs ∧
    (walk new entries s).cam = s.cam ∧ (walk new entries s).ppm = s.ppm ∧ (walk new entries s).store = s.store ∧
    (walk new entries s).samples = s.samples ∧ (walk new entries s).free = s.free ∧
    (walk new entries s).pending = s.pending := by
  induction entries generalizing s with
  | nil => simp [walk]
  | cons x rest ih =>
    obtain ⟨e, old, now⟩ := x
    simp only [walk]
    split <;> simp [ih]

@[simp] theorem evaluate_keeps (s : State) :
    (evaluate s).cli = s.cli ∧ (evaluate s).dsp = s.dsp ∧ (evaluate s).tbs = s.tbs ∧ (evaluate s).cam = s.cam ∧
    (evaluate s).ppm = s.ppm ∧ (evaluate s).store = s.store ∧ (evaluate s).samples = s.samples ∧
    (evaluate s).free = s.free ∧ (evaluate s).pending = s.pending := by
  simp only [evaluate]
  simp

@[simp] theorem takePublication_keeps (s : State) (p : Publication) :
    (takePublication s p).cli = s.cli ∧ (takePublication s p).dsp = s.dsp ∧ (takePublication s p).tbs = s.tbs ∧
    (takePublication s p).cam = s.cam ∧ (takePublication s p).ppm = s.ppm ∧ (takePublication s p).store = s.store ∧
    (takePublication s p).samples = s.samples ∧ (takePublication s p).free = s.free ∧
    (takePublication s p).pending = s.pending := by
  simp only [takePublication]
  (repeat' split) <;> simp

@[simp] theorem fnuTake_keeps (turns : Nat) (s : State) :
    (fnuTake turns s).cli = s.cli ∧ (fnuTake turns s).dsp = s.dsp ∧ (fnuTake turns s).tbs = s.tbs ∧
    (fnuTake turns s).cam = s.cam ∧ (fnuTake turns s).ppm = s.ppm ∧ (fnuTake turns s).store = s.store ∧
    (fnuTake turns s).samples = s.samples ∧ (fnuTake turns s).free = s.free ∧ (fnuTake turns s).pending = s.pending := by
  induction turns generalizing s with
  | zero => simp [fnuTake]
  | succ n ih =>
    simp only [fnuTake]
    split <;> simp [ih]

@[simp] theorem fnuSettle_keeps (s : State) :
    (fnuSettle s).cli = s.cli ∧ (fnuSettle s).dsp = s.dsp ∧ (fnuSettle s).tbs = s.tbs ∧ (fnuSettle s).cam = s.cam ∧
    (fnuSettle s).ppm = s.ppm ∧ (fnuSettle s).store = s.store ∧ (fnuSettle s).samples = s.samples ∧
    (fnuSettle s).free = s.free ∧ (fnuSettle s).pending = s.pending := by
  simp only [fnuSettle]
  simp

@[simp] theorem functionsHanded_keeps (s : State) (group states low high : Nat) :
    (functionsHanded s group states low high).cli = s.cli ∧ (functionsHanded s group states low high).dsp = s.dsp ∧
    (functionsHanded s group states low high).tbs = s.tbs ∧ (functionsHanded s group states low high).cam = s.cam ∧
    (functionsHanded s group states low high).ppm = s.ppm ∧
    (functionsHanded s group states low high).store = s.store ∧
    (functionsHanded s group states low high).samples = s.samples ∧
    (functionsHanded s group states low high).free = s.free ∧
    (functionsHanded s group states low high).pending = s.pending := by
  simp only [functionsHanded]
  (repeat' split) <;> simp

@[simp] theorem installEntry_keeps (new : Outputs) (x : MapEntry × MapEntry) (old now : Bool) (s : State) :
    (installEntry new x old now s).cli = s.cli ∧ (installEntry new x old now s).dsp = s.dsp ∧
    (installEntry new x old now s).tbs = s.tbs ∧ (installEntry new x old now s).cam = s.cam ∧
    (installEntry new x old now s).ppm = s.ppm ∧ (installEntry new x old now s).store = s.store ∧
    (installEntry new x old now s).samples = s.samples ∧ (installEntry new x old now s).free = s.free ∧
    (installEntry new x old now s).pending = s.pending := by
  simp only [installEntry]
  (repeat' split) <;> simp

@[simp] theorem installWalk_keeps (new : Outputs) (entries : List ((MapEntry × MapEntry) × Bool × Bool)) (s : State) :
    (installWalk new entries s).cli = s.cli ∧ (installWalk new entries s).dsp = s.dsp ∧
    (installWalk new entries s).tbs = s.tbs ∧ (installWalk new entries s).cam = s.cam ∧
    (installWalk new entries s).ppm = s.ppm ∧ (installWalk new entries s).store = s.store ∧
    (installWalk new entries s).samples = s.samples ∧ (installWalk new entries s).free = s.free ∧
    (installWalk new entries s).pending = s.pending := by
  induction entries generalizing s with
  | nil => simp [installWalk]
  | cons x rest ih =>
    obtain ⟨e, old, now⟩ := x
    simp only [installWalk]
    simp [ih]

@[simp] theorem mapInstalled_keeps (s : State) (oldMap : List Byte) :
    (mapInstalled s oldMap).cli = s.cli ∧ (mapInstalled s oldMap).dsp = s.dsp ∧ (mapInstalled s oldMap).tbs = s.tbs ∧
    (mapInstalled s oldMap).cam = s.cam ∧ (mapInstalled s oldMap).ppm = s.ppm ∧
    (mapInstalled s oldMap).store = s.store ∧ (mapInstalled s oldMap).samples = s.samples ∧
    (mapInstalled s oldMap).free = s.free ∧ (mapInstalled s oldMap).pending = s.pending := by
  simp only [mapInstalled]
  simp

end Sys2Proof.Machine
end

