-- ==== Sys2Proof/Laws/Dispatch.lean ====
section
/-!
SUPPORT. Once for all: how a command acts while the part runs and while it does not, the frames of commands one after
another, and the dispatch of a head frame up to its handing on.
-/
namespace Sys2Proof.Laws

open Sys2Proof.Machine

/-! ### Commands in and out of reset -/

theorem live_running {f : State → State} {s : State} (h : running s = true) : live f s = .next (f s) := by
  simp [live, whileRunning, h]

theorem live_reset {f : State → State} {s : State} (h : running s = false) : live f s = .next s := by
  simp [live, whileRunning, h]

theorem settled_running {f : State → State} {s : State} (h : running s = true) :
    settled f s = .next (fnuSettle (f s)) := by
  simp [settled, whileRunning, h]

theorem settled_reset {f : State → State} {s : State} (h : running s = false) : settled f s = .next s := by
  simp [settled, whileRunning, h]

/-- FNU with nothing waiting for it does nothing. -/
theorem fnuSettle_of_nil {s : State} (h : s.fnu.waiting = []) : fnuSettle s = s := by
  simp [fnuSettle, fnuTurns, fnuTake, h]

/-! ### Frames -/

theorem sameBut_refl (l : List Part) (s : State) : SameBut l s s := by
  intro p _
  cases p <;> rfl

theorem sameBut_mono {l l' : List Part} {s t : State} (h : SameBut l s t) (hl : ∀ p, p ∈ l → p ∈ l') :
    SameBut l' s t :=
  fun p hp => h p (fun hp' => hp (hl p hp'))

theorem sameBut_trans {l : List Part} {s t u : State} (h : SameBut l s t) (h' : SameBut l t u) : SameBut l s u := by
  intro p hp
  have h1 := h p hp
  have h2 := h' p hp
  cases p <;> simp_all [partSame]

/-! ### The dispatch (R20 to R24) -/

/-- Two addresses agree under a mask exactly if they agree in each of its bits. -/
theorem maskedEqual_iff (m a b : Nat) :
    maskedEqual m a b = true ↔ ∀ n, m.testBit n = true → a.testBit n = b.testBit n := by
  simp only [maskedEqual, decide_eq_true_eq]
  constructor
  · intro h n hn
    have := congrArg (fun x => x.testBit n) h
    simpa [Nat.testBit_land, hn] using this
  · intro h
    apply Nat.eq_of_testBit_eq
    intro n
    show (a &&& m).testBit n = (b &&& m).testBit n
    rw [Nat.testBit_and, Nat.testBit_and]
    cases hm : m.testBit n
    · simp
    · simp [h n hm]

/-- A frame is copied to the relay queue exactly if some RELAY entry matches it. -/
theorem relayed_iff (s : State) (f : Frame) : relayed s f = true ↔ relayWanted s f := by
  simp only [relayed, List.any_eq_true, List.mem_range, relayMatches, relayWanted, Bool.and_eq_true, maskedEqual_iff,
    decide_eq_true_eq, and_assoc]

/-- An accepting entry matches exactly if it agrees with the frame (R23). -/
theorem entryMatches_iff (e : AddressEntry) (f : Frame) :
    entryMatches e (frameAddress f) = true ↔ entryAgrees e f := by
  have hc : (∀ n, e.mask.testBit n = true → (frameAddress f).testBit n = e.address.testBit n) ↔
      maskedEqual e.mask (frameAddress f) e.address = true := (maskedEqual_iff _ _ _).symm
  simp only [entryAgrees, hc]
  cases h : e.kind <;> simp [entryMatches, h]

/-- All that the taking of a frame can do. -/
theorem frameTaken_spec (s : State) (f : Frame) (rest : List Frame) :
    SameBut [.cli] s (frameTaken s f rest) ∧
      (relayWanted s f → (frameTaken s f rest).cli = relayPlace (inboundTake s.cli rest) f) ∧
      (¬relayWanted s f → (frameTaken s f rest).cli = inboundTake s.cli rest) := by
  have he : relayed (s.setCli (inboundTake s.cli rest)) f = relayed s f := rfl
  refine ⟨?_, ?_, ?_⟩
  · intro p hp
    simp only [frameTaken]
    split <;> cases p <;> simp_all [partSame]
  · intro h
    rw [← relayed_iff] at h
    simp [frameTaken, he, h]
  · intro h
    rw [← relayed_iff] at h
    simp [frameTaken, he, h]

/-- A head frame of the row that is discarded is only taken. -/
theorem dispatch_discarded {row : Frame → Bool} {hand : State → Frame → Via → State} {s : State} {f : Frame}
    {rest : List Frame} (hin : s.cli.inbound = f :: rest) (hf : row f = true) (hv : handedVia s f = none) :
    dispatch row hand s = frameTaken s f rest := by
  simp [dispatch, hin, hf, hv]

/-- A head frame of the row that is handed on is taken, and its content handed on. -/
theorem dispatch_handed {row : Frame → Bool} {hand : State → Frame → Via → State} {s : State} {f : Frame}
    {rest : List Frame} {via : Via} (hin : s.cli.inbound = f :: rest) (hf : row f = true)
    (hv : handedVia s f = some via) : dispatch row hand s = hand (frameTaken s f rest) f via := by
  simp [dispatch, hin, hf, hv]

/-- A head frame of another row, or an empty queue, is left for its own command. -/
theorem dispatch_other {row : Frame → Bool} {hand : State → Frame → Via → State} {s : State}
    (h : ∀ f rest, s.cli.inbound = f :: rest → row f = false) : dispatch row hand s = s := by
  cases hin : s.cli.inbound with
  | nil => simp [dispatch, hin]
  | cons f rest => simp [dispatch, hin, h f rest hin]

end Sys2Proof.Laws
end

