-- ==== Sys2Proof/Laws/Memory.lean ====
section
/-!
SUPPORT. The sample memory: what a byte reads as after a write, and that every operation keeps the canonical form (R145 to
R148).
-/
namespace Sys2Proof.Laws

open Sys2Proof.Machine

/-- Every cell of `m` lies below `hi`. -/
abbrev cellsBelow (hi : Nat) (m : List Host.Cell) : Prop := ∀ c ∈ m, c.1 < hi

theorem cellsAbove_mono {lo lo' : Nat} {m : List Host.Cell} (h : cellsAbove lo m = true) (hl : lo' ≤ lo) :
    cellsAbove lo' m = true := by
  cases m with
  | nil => rfl
  | cons c rest =>
    simp only [cellsAbove, Bool.and_eq_true, decide_eq_true_eq] at *
    exact ⟨⟨by omega, h.1.2⟩, h.2⟩

/-- Below the bound of the canonical form nothing is listed. -/
theorem readCell_below {lo a : Nat} {m : List Host.Cell} (h : cellsAbove lo m = true) (ha : a < lo) :
    readCell m a = erasedByte := by
  induction m generalizing lo with
  | nil => rfl
  | cons c rest ih =>
    simp only [cellsAbove, Bool.and_eq_true, decide_eq_true_eq] at h
    simp only [readCell]
    rw [if_neg (by omega)]
    exact ih h.2 (by omega)

/-- A write keeps the canonical form. -/
theorem cellsAbove_writeCell {lo a : Nat} {m : List Host.Cell} (v : Byte) (h : cellsAbove lo m = true) (ha : lo ≤ a) :
    cellsAbove lo (writeCell m a v) = true := by
  induction m generalizing lo with
  | nil => simp only [writeCell]; split <;> simp_all [cellsAbove]
  | cons c rest ih =>
    simp only [cellsAbove, Bool.and_eq_true, decide_eq_true_eq] at h
    obtain ⟨⟨h1, h2⟩, h3⟩ := h
    simp only [writeCell]
    split
    · simp only [cellsAbove, Bool.and_eq_true, decide_eq_true_eq]
      exact ⟨⟨h1, h2⟩, ih h3 (by omega)⟩
    · split
      · subst a
        split
        · exact cellsAbove_mono h3 (by omega)
        · simp_all [cellsAbove]
      · split
        · simp_all [cellsAbove]
        · simp only [cellsAbove, Bool.and_eq_true, decide_eq_true_eq]
          exact ⟨⟨ha, by simpa using ‹¬v = erasedByte›⟩, ⟨by omega, h2⟩, h3⟩

theorem cellsBelow_writeCell {hi a : Nat} {m : List Host.Cell} (v : Byte) (h : cellsBelow hi m) (ha : a < hi) :
    cellsBelow hi (writeCell m a v) := by
  induction m with
  | nil => simp only [writeCell]; split <;> simp_all [cellsBelow]
  | cons c rest ih =>
    have hr : cellsBelow hi rest := fun x hx => h x (List.mem_cons_of_mem _ hx)
    have hc : c.1 < hi := h c List.mem_cons_self
    have := ih hr
    simp only [writeCell]
    split
    · exact List.forall_mem_cons.2 ⟨hc, this⟩
    · split <;> split <;>
        first
          | exact hr
          | exact h
          | exact List.forall_mem_cons.2 ⟨ha, hr⟩
          | exact List.forall_mem_cons.2 ⟨ha, h⟩

/-- A written byte reads back, and every other byte reads as before. -/
theorem readCell_writeCell {lo a : Nat} {m : List Host.Cell} (v : Byte) (n : Nat) (h : cellsAbove lo m = true) :
    readCell (writeCell m a v) n = if n = a then v else readCell m n := by
  induction m generalizing lo with
  | nil =>
    simp only [writeCell]
    by_cases hn : n = a
    · subst n
      rw [if_pos rfl]
      split
      · rename_i hv; rw [hv]; rfl
      · simp [readCell]
    · rw [if_neg hn]
      split
      · rfl
      · simp [readCell, Ne.symm hn]
  | cons c rest ih =>
    simp only [cellsAbove, Bool.and_eq_true, decide_eq_true_eq] at h
    obtain ⟨⟨h1, h2⟩, h3⟩ := h
    simp only [writeCell]
    split
    · simp only [readCell, ih h3]
      by_cases hc : c.1 = n
      · rw [if_pos hc, if_pos hc, if_neg (by omega)]
      · rw [if_neg hc, if_neg hc]
    · split
      · rename_i hlt heq
        by_cases hn : n = a
        · subst n
          rw [if_pos rfl]
          split
          · rename_i hv
            rw [readCell_below h3 (by omega), hv]
          · simp [readCell]
        · rw [if_neg hn]
          split <;> simp [readCell, Ne.symm hn, heq]
      · rename_i hlt hne
        by_cases hn : n = a
        · subst n
          rw [if_pos rfl]
          split
          · rename_i hv
            simp only [readCell]
            rw [if_neg hne, readCell_below h3 (by omega), hv]
          · simp [readCell]
        · rw [if_neg hn]
          split <;> simp [readCell, Ne.symm hn]

/-- The canonical form in its two halves. -/
theorem memoryWf_iff (m : List Host.Cell) :
    memoryWf m = true ↔ cellsAbove 0 m = true ∧ cellsBelow 16777216 m := by
  simp [memoryWf, cellsBelow]

/-- A program keeps the canonical form if it lies within the device. -/
theorem memoryWf_programBytes {m : List Host.Cell} {a : Nat} {data : List Byte} (h : memoryWf m = true)
    (ha : a + data.length ≤ 16777216) : memoryWf (programBytes m a data) = true := by
  induction data generalizing m a with
  | nil => exact h
  | cons d rest ih =>
    simp only [List.length_cons] at ha
    refine ih ?_ (by omega)
    rw [memoryWf_iff] at *
    exact ⟨cellsAbove_writeCell _ h.1 (by omega), cellsBelow_writeCell _ h.2 (by omega)⟩

/-- What a byte reads as after a program: the AND of old and new within the bytes programmed. -/
theorem readCell_programBytes {m : List Host.Cell} {a : Nat} {data : List Byte} (n : Nat)
    (h : cellsAbove 0 m = true) :
    readCell (programBytes m a data) n =
      if a ≤ n ∧ n < a + data.length then readCell m n &&& data.getD (n - a) 0 else readCell m n := by
  induction data generalizing m a with
  | nil =>
    rw [if_neg (fun k => by have := k.1; have := k.2; simp only [List.length_nil] at this; omega)]
    rfl
  | cons d rest ih =>
    simp only [programBytes, List.length_cons]
    rw [ih (cellsAbove_writeCell _ h (by omega)), readCell_writeCell _ _ h]
    by_cases hn : n = a
    · subst n
      rw [if_neg (by omega), if_pos rfl, if_pos (by omega)]
      simp
    · rw [if_neg hn]
      by_cases hm : a + 1 ≤ n ∧ n < a + 1 + rest.length
      · rw [if_pos hm, if_pos (by omega)]
        have : n - a = n - (a + 1) + 1 := by omega
        rw [this, List.getD_cons_succ]
      · rw [if_neg hm, if_neg (by omega)]

/-- A selection of the cells, with values changed but none left erased, keeps the canonical form. -/
theorem cellsAbove_filterMap {f : Host.Cell → Option Host.Cell}
    (hf : ∀ c d, f c = some d → d.1 = c.1 ∧ (c.2 ≠ erasedByte → d.2 ≠ erasedByte)) {lo : Nat} {m : List Host.Cell}
    (h : cellsAbove lo m = true) : cellsAbove lo (m.filterMap f) = true := by
  induction m generalizing lo with
  | nil => rfl
  | cons c rest ih =>
    simp only [cellsAbove, Bool.and_eq_true, decide_eq_true_eq] at h
    obtain ⟨⟨h1, h2⟩, h3⟩ := h
    simp only [List.filterMap_cons]
    split
    · exact cellsAbove_mono (ih h3) (by omega)
    · rename_i d hd
      obtain ⟨e1, e2⟩ := hf c d hd
      simp only [cellsAbove, Bool.and_eq_true, decide_eq_true_eq]
      exact ⟨⟨by omega, e2 h2⟩, by rw [e1]; exact ih h3⟩

/-- An erase is such a selection. -/
theorem eraseSector_eq (m : List Host.Cell) (sector : Nat) :
    eraseSector m sector = m.filterMap (fun c => if inSector sector c.1 then none else some c) := by
  induction m with
  | nil => rfl
  | cons c rest ih =>
    simp only [eraseSector, List.filterMap_cons] at *
    by_cases h : inSector sector c.1 <;> simp [h, ih]

/-- A selection of the cells keeps the canonical form. -/
theorem memoryWf_filterMap {f : Host.Cell → Option Host.Cell}
    (hf : ∀ c d, f c = some d → d.1 = c.1 ∧ (c.2 ≠ erasedByte → d.2 ≠ erasedByte)) {m : List Host.Cell}
    (h : memoryWf m = true) : memoryWf (m.filterMap f) = true := by
  rw [memoryWf_iff] at *
  refine ⟨cellsAbove_filterMap hf h.1, ?_⟩
  intro d hd
  obtain ⟨c, hc, he⟩ := List.mem_filterMap.1 hd
  rw [(hf c d he).1]
  exact h.2 c hc

theorem memoryWf_eraseSector {m : List Host.Cell} (sector : Nat) (h : memoryWf m = true) :
    memoryWf (eraseSector m sector) = true := by
  rw [eraseSector_eq]
  refine memoryWf_filterMap (fun c d hd => ?_) h
  split at hd <;> cases hd
  exact ⟨rfl, id⟩

theorem memoryWf_eraseCutShort {m : List Host.Cell} (sector k : Nat) (h : memoryWf m = true) :
    memoryWf (eraseCutShort m sector k) = true := by
  refine memoryWf_filterMap (fun c d hd => ?_) h
  split at hd
  · simp only [cellCutShort] at hd
    split at hd <;> cases hd
    exact ⟨rfl, fun _ => ‹_›⟩
  · cases hd
    exact ⟨rfl, id⟩

theorem memoryWf_programCutShort {m : List Host.Cell} {a : Nat} {data : List Byte} (k : Nat) (h : memoryWf m = true)
    (ha : a + data.length ≤ 16777216) : memoryWf (programCutShort m a data k) = true := by
  induction data generalizing m a k with
  | nil => exact h
  | cons d rest ih =>
    simp only [List.length_cons] at ha
    refine ih _ ?_ (by omega)
    rw [memoryWf_iff] at *
    exact ⟨cellsAbove_writeCell _ h.1 (by omega), cellsBelow_writeCell _ h.2 (by omega)⟩

/-- Outside an erased sector every byte reads as before, and inside it as erased. -/
theorem readCell_eraseSector (m : List Host.Cell) (sector n : Nat) :
    readCell (eraseSector m sector) n = if inSector sector n then erasedByte else readCell m n := by
  induction m with
  | nil => simp [eraseSector, readCell]
  | cons c rest ih =>
    simp only [eraseSector, List.filter_cons] at *
    by_cases hc : inSector sector c.1
    · rw [if_neg (by simp [hc]), ih]
      by_cases hn : c.1 = n
      · subst hn; simp [hc]
      · simp [readCell, hn]
    · rw [if_pos (by simp [hc])]
      simp only [readCell, ih]
      by_cases hn : c.1 = n
      · subst hn; simp [hc]
      · simp [hn]

end Sys2Proof.Laws
end

