-- ==== Sys2Proof/Laws/PowerKeeps.lean ====
section
/-!
SUPPORT. One lemma an operation: what each operation of the power path, the sequencer's completion and the table store leaves as it was. Each conjunct is a rewriting rule of `simp`.
-/
namespace Sys2Proof.Machine

@[simp] theorem publishDcap_keeps (s : State) :
    (publishDcap s).cli = s.cli ∧ (publishDcap s).dsp = s.dsp ∧ (publishDcap s).tbs = s.tbs ∧
    (publishDcap s).cam = s.cam ∧ (publishDcap s).snd = s.snd ∧ (publishDcap s).smk = s.smk ∧
    (publishDcap s).lmp = s.lmp ∧ (publishDcap s).store = s.store ∧ (publishDcap s).samples = s.samples ∧
    (publishDcap s).free = s.free ∧ (publishDcap s).pending = s.pending := by
  simp only [publishDcap]
  (repeat' split) <;> simp

@[simp] theorem publishHmax_keeps (s : State) :
    (publishHmax s).cli = s.cli ∧ (publishHmax s).dsp = s.dsp ∧ (publishHmax s).tbs = s.tbs ∧
    (publishHmax s).trc = s.trc ∧ (publishHmax s).mbr = s.mbr ∧ (publishHmax s).msq = s.msq ∧
    (publishHmax s).cam = s.cam ∧ (publishHmax s).snd = s.snd ∧ (publishHmax s).lmp = s.lmp ∧
    (publishHmax s).store = s.store ∧ (publishHmax s).samples = s.samples ∧ (publishHmax s).free = s.free ∧
    (publishHmax s).pending = s.pending := by
  simp only [publishHmax]
  (repeat' split) <;> simp

@[simp] theorem publishSoundCap_keeps (s : State) :
    (publishSoundCap s).cli = s.cli ∧ (publishSoundCap s).dsp = s.dsp ∧ (publishSoundCap s).tbs = s.tbs ∧
    (publishSoundCap s).fnu = s.fnu ∧ (publishSoundCap s).trc = s.trc ∧ (publishSoundCap s).mbr = s.mbr ∧
    (publishSoundCap s).msq = s.msq ∧ (publishSoundCap s).cam = s.cam ∧ (publishSoundCap s).smk = s.smk ∧
    (publishSoundCap s).lmp = s.lmp ∧ (publishSoundCap s).store = s.store ∧ (publishSoundCap s).samples = s.samples ∧
    (publishSoundCap s).free = s.free ∧ (publishSoundCap s).pending = s.pending := by
  simp only [publishSoundCap]
  (repeat' split) <;> simp

@[simp] theorem powerEnd_keeps (s : State) :
    (powerEnd s).cli = s.cli ∧ (powerEnd s).dsp = s.dsp ∧ (powerEnd s).tbs = s.tbs ∧ (powerEnd s).cam = s.cam ∧
    (powerEnd s).lmp = s.lmp ∧ (powerEnd s).store = s.store ∧ (powerEnd s).samples = s.samples ∧
    (powerEnd s).free = s.free ∧ (powerEnd s).pending = s.pending := by
  simp only [powerEnd]
  simp

@[simp] theorem announce_keeps (s : State) (p : PowerState) :
    (announce s p).cli = s.cli ∧ (announce s p).dsp = s.dsp ∧ (announce s p).tbs = s.tbs ∧
    (announce s p).cam = s.cam ∧ (announce s p).ppm = s.ppm ∧ (announce s p).store = s.store ∧
    (announce s p).samples = s.samples ∧ (announce s p).free = s.free ∧ (announce s p).pending = s.pending := by
  simp only [announce]
  simp

@[simp] theorem bufferRequest_keeps (s : State) :
    (bufferRequest s).cli = s.cli ∧ (bufferRequest s).dsp = s.dsp ∧ (bufferRequest s).tbs = s.tbs ∧
    (bufferRequest s).fnu = s.fnu ∧ (bufferRequest s).trc = s.trc ∧ (bufferRequest s).mbr = s.mbr ∧
    (bufferRequest s).cam = s.cam ∧ (bufferRequest s).snd = s.snd ∧ (bufferRequest s).smk = s.smk ∧
    (bufferRequest s).lmp = s.lmp ∧ (bufferRequest s).ppm = s.ppm ∧ (bufferRequest s).store = s.store ∧
    (bufferRequest s).samples = s.samples ∧ (bufferRequest s).free = s.free ∧ (bufferRequest s).pending = s.pending := by
  simp only [bufferRequest]
  simp

@[simp] theorem enterNormal_keeps (s : State) :
    (enterNormal s).cli = s.cli ∧ (enterNormal s).dsp = s.dsp ∧ (enterNormal s).tbs = s.tbs ∧
    (enterNormal s).cam = s.cam ∧ (enterNormal s).store = s.store ∧ (enterNormal s).samples = s.samples ∧
    (enterNormal s).free = s.free ∧ (enterNormal s).pending = s.pending := by
  simp only [enterNormal]
  (repeat' split) <;> simp

@[simp] theorem enterCoast_keeps (s : State) :
    (enterCoast s).cli = s.cli ∧ (enterCoast s).dsp = s.dsp ∧ (enterCoast s).tbs = s.tbs ∧
    (enterCoast s).cam = s.cam ∧ (enterCoast s).store = s.store ∧ (enterCoast s).samples = s.samples ∧
    (enterCoast s).free = s.free ∧ (enterCoast s).pending = s.pending := by
  simp only [enterCoast]
  simp

@[simp] theorem enterHold_keeps (s : State) :
    (enterHold s).cli = s.cli ∧ (enterHold s).dsp = s.dsp ∧ (enterHold s).tbs = s.tbs ∧ (enterHold s).cam = s.cam ∧
    (enterHold s).store = s.store ∧ (enterHold s).samples = s.samples ∧ (enterHold s).free = s.free ∧
    (enterHold s).pending = s.pending := by
  simp only [enterHold]
  simp

@[simp] theorem setSupply_keeps (s : State) (x : Supply) (v : SupplyState) :
    (setSupply s x v).cli = s.cli ∧ (setSupply s x v).dsp = s.dsp ∧ (setSupply s x v).tbs = s.tbs ∧
    (setSupply s x v).fnu = s.fnu ∧ (setSupply s x v).trc = s.trc ∧ (setSupply s x v).mbr = s.mbr ∧
    (setSupply s x v).msq = s.msq ∧ (setSupply s x v).cam = s.cam ∧ (setSupply s x v).snd = s.snd ∧
    (setSupply s x v).smk = s.smk ∧ (setSupply s x v).lmp = s.lmp ∧ (setSupply s x v).store = s.store ∧
    (setSupply s x v).samples = s.samples ∧ (setSupply s x v).free = s.free ∧ (setSupply s x v).pending = s.pending := by
  simp only [setSupply]
  (repeat' split) <;> simp

@[simp] theorem supplyOf_setSupply (s : State) (x : Supply) (v : SupplyState) :
    supplyOf (setSupply s x v).ppm x = v := by
  cases x <;> rfl

@[simp] theorem supplyOf_other_setSupply (s : State) (x : Supply) (v : SupplyState) :
    supplyOf (setSupply s x v).ppm (otherSupply x) = supplyOf s.ppm (otherSupply x) := by
  cases x <;> rfl

@[simp] theorem supplyActive_keeps (s : State) (x : Supply) :
    (supplyActive s x).cli = s.cli ∧ (supplyActive s x).dsp = s.dsp ∧ (supplyActive s x).tbs = s.tbs ∧
    (supplyActive s x).cam = s.cam ∧ (supplyActive s x).store = s.store ∧ (supplyActive s x).samples = s.samples ∧
    (supplyActive s x).free = s.free ∧ (supplyActive s x).pending = s.pending := by
  simp only [supplyActive]
  (repeat' split) <;> simp

@[simp] theorem bufferActive_keeps (s : State) :
    (bufferActive s).cli = s.cli ∧ (bufferActive s).dsp = s.dsp ∧ (bufferActive s).tbs = s.tbs ∧
    (bufferActive s).cam = s.cam ∧ (bufferActive s).store = s.store ∧ (bufferActive s).samples = s.samples ∧
    (bufferActive s).free = s.free ∧ (bufferActive s).pending = s.pending := by
  simp only [bufferActive]
  (repeat' split) <;> simp

@[simp] theorem supplySelect_keeps (s : State) (x : Supply) :
    (supplySelect s x).cli = s.cli ∧ (supplySelect s x).dsp = s.dsp ∧ (supplySelect s x).tbs = s.tbs ∧
    (supplySelect s x).cam = s.cam ∧ (supplySelect s x).store = s.store ∧ (supplySelect s x).samples = s.samples ∧
    (supplySelect s x).free = s.free ∧ (supplySelect s x).pending = s.pending := by
  simp only [supplySelect]
  (repeat' split) <;> simp

@[simp] theorem supplyQualified_keeps (s : State) (x : Supply) :
    (supplyQualified s x).cli = s.cli ∧ (supplyQualified s x).dsp = s.dsp ∧ (supplyQualified s x).tbs = s.tbs ∧
    (supplyQualified s x).cam = s.cam ∧ (supplyQualified s x).store = s.store ∧
    (supplyQualified s x).samples = s.samples ∧ (supplyQualified s x).free = s.free ∧
    (supplyQualified s x).pending = s.pending := by
  simp only [supplyQualified]
  simp

@[simp] theorem comparatorReads_keeps (s : State) (x : Supply) (volts : BitVec 12) :
    (comparatorReads s x volts).cli = s.cli ∧ (comparatorReads s x volts).dsp = s.dsp ∧
    (comparatorReads s x volts).tbs = s.tbs ∧ (comparatorReads s x volts).fnu = s.fnu ∧
    (comparatorReads s x volts).trc = s.trc ∧ (comparatorReads s x volts).mbr = s.mbr ∧
    (comparatorReads s x volts).msq = s.msq ∧ (comparatorReads s x volts).cam = s.cam ∧
    (comparatorReads s x volts).snd = s.snd ∧ (comparatorReads s x volts).smk = s.smk ∧
    (comparatorReads s x volts).lmp = s.lmp ∧ (comparatorReads s x volts).store = s.store ∧
    (comparatorReads s x volts).samples = s.samples ∧ (comparatorReads s x volts).free = s.free ∧
    (comparatorReads s x volts).pending = s.pending := by
  simp only [comparatorReads]
  simp

@[simp] theorem supplyOf_comparatorReads (s : State) (x : Supply) (volts : BitVec 12) :
    supplyOf (comparatorReads s x volts).ppm x =
      { supplyOf s.ppm x with voltage := volts, present := readsPresent s x volts } := by
  simp only [comparatorReads]
  simp

@[simp] theorem startQualifying_keeps (s : State) (x : Supply) :
    (startQualifying s x).cli = s.cli ∧ (startQualifying s x).dsp = s.dsp ∧ (startQualifying s x).tbs = s.tbs ∧
    (startQualifying s x).fnu = s.fnu ∧ (startQualifying s x).trc = s.trc ∧ (startQualifying s x).mbr = s.mbr ∧
    (startQualifying s x).msq = s.msq ∧ (startQualifying s x).cam = s.cam ∧ (startQualifying s x).snd = s.snd ∧
    (startQualifying s x).smk = s.smk ∧ (startQualifying s x).lmp = s.lmp ∧ (startQualifying s x).store = s.store ∧
    (startQualifying s x).samples = s.samples ∧ (startQualifying s x).free = s.free ∧
    (startQualifying s x).pending = s.pending := by
  simp only [startQualifying]
  (repeat' split) <;> simp

@[simp] theorem presenceGain_keeps (s : State) (x : Supply) :
    (presenceGain s x).cli = s.cli ∧ (presenceGain s x).dsp = s.dsp ∧ (presenceGain s x).tbs = s.tbs ∧
    (presenceGain s x).cam = s.cam ∧ (presenceGain s x).lmp = s.lmp ∧ (presenceGain s x).store = s.store ∧
    (presenceGain s x).samples = s.samples ∧ (presenceGain s x).free = s.free ∧ (presenceGain s x).pending = s.pending := by
  simp only [presenceGain]
  simp

@[simp] theorem fastReturnRaise_keeps (s : State) (x : Supply) :
    (fastReturnRaise s x).cli = s.cli ∧ (fastReturnRaise s x).dsp = s.dsp ∧ (fastReturnRaise s x).tbs = s.tbs ∧
    (fastReturnRaise s x).fnu = s.fnu ∧ (fastReturnRaise s x).trc = s.trc ∧
    (fastReturnRaise s x).cam = s.cam ∧ (fastReturnRaise s x).snd = s.snd ∧ (fastReturnRaise s x).smk = s.smk ∧
    (fastReturnRaise s x).lmp = s.lmp ∧ (fastReturnRaise s x).store = s.store ∧
    (fastReturnRaise s x).samples = s.samples ∧ (fastReturnRaise s x).free = s.free ∧
    (fastReturnRaise s x).pending = s.pending := by
  simp only [fastReturnRaise]
  (repeat' split) <;> simp

@[simp] theorem activeLost_keeps (s : State) (x : Supply) :
    (activeLost s x).cli = s.cli ∧ (activeLost s x).dsp = s.dsp ∧ (activeLost s x).tbs = s.tbs ∧
    (activeLost s x).cam = s.cam ∧ (activeLost s x).store = s.store ∧ (activeLost s x).samples = s.samples ∧
    (activeLost s x).free = s.free ∧ (activeLost s x).pending = s.pending := by
  simp only [activeLost]
  (repeat' split) <;> simp

@[simp] theorem supplyAbsent_keeps (s : State) (x : Supply) :
    (supplyAbsent s x).cli = s.cli ∧ (supplyAbsent s x).dsp = s.dsp ∧ (supplyAbsent s x).tbs = s.tbs ∧
    (supplyAbsent s x).fnu = s.fnu ∧ (supplyAbsent s x).trc = s.trc ∧ (supplyAbsent s x).mbr = s.mbr ∧
    (supplyAbsent s x).msq = s.msq ∧ (supplyAbsent s x).cam = s.cam ∧ (supplyAbsent s x).snd = s.snd ∧
    (supplyAbsent s x).smk = s.smk ∧ (supplyAbsent s x).lmp = s.lmp ∧ (supplyAbsent s x).store = s.store ∧
    (supplyAbsent s x).samples = s.samples ∧ (supplyAbsent s x).free = s.free ∧ (supplyAbsent s x).pending = s.pending := by
  simp only [supplyAbsent]
  simp

@[simp] theorem presenceLoss_keeps (s : State) (x : Supply) :
    (presenceLoss s x).cli = s.cli ∧ (presenceLoss s x).dsp = s.dsp ∧ (presenceLoss s x).tbs = s.tbs ∧
    (presenceLoss s x).cam = s.cam ∧ (presenceLoss s x).store = s.store ∧ (presenceLoss s x).samples = s.samples ∧
    (presenceLoss s x).free = s.free ∧ (presenceLoss s x).pending = s.pending := by
  simp only [presenceLoss]
  (repeat' split) <;> simp

@[simp] theorem presenceEvent_keeps (was : Bool) (x : Supply) (s : State) :
    (presenceEvent was x s).cli = s.cli ∧ (presenceEvent was x s).dsp = s.dsp ∧ (presenceEvent was x s).tbs = s.tbs ∧
    (presenceEvent was x s).cam = s.cam ∧ (presenceEvent was x s).store = s.store ∧
    (presenceEvent was x s).samples = s.samples ∧ (presenceEvent was x s).free = s.free ∧
    (presenceEvent was x s).pending = s.pending := by
  simp only [presenceEvent]
  (repeat' split) <;> simp

/-- All that the comparator's reading can bring about: nothing, a gain or a loss (R182). -/
theorem presenceEvent_cases (was : Bool) (x : Supply) (s : State) :
    ((supplyOf s.ppm x).present = was ∧ presenceEvent was x s = s) ∨
      (was = false ∧ (supplyOf s.ppm x).present = true ∧ presenceEvent was x s = presenceGain s x) ∨
      (was = true ∧ (supplyOf s.ppm x).present = false ∧ presenceEvent was x s = presenceLoss s x) := by
  cases was <;> cases h : (supplyOf s.ppm x).present <;> simp [presenceEvent, h]

@[simp] theorem presenceFollows_keeps (s : State) (x : Supply) :
    (presenceFollows s x).cli = s.cli ∧ (presenceFollows s x).dsp = s.dsp ∧ (presenceFollows s x).tbs = s.tbs ∧
    (presenceFollows s x).cam = s.cam ∧ (presenceFollows s x).store = s.store ∧
    (presenceFollows s x).samples = s.samples ∧ (presenceFollows s x).free = s.free ∧
    (presenceFollows s x).pending = s.pending := by
  simp only [presenceFollows]
  simp

@[simp] theorem settingsInstalled_keeps (s : State) :
    (settingsInstalled s).cli = s.cli ∧ (settingsInstalled s).dsp = s.dsp ∧ (settingsInstalled s).tbs = s.tbs ∧
    (settingsInstalled s).cam = s.cam ∧ (settingsInstalled s).store = s.store ∧
    (settingsInstalled s).samples = s.samples ∧ (settingsInstalled s).free = s.free ∧
    (settingsInstalled s).pending = s.pending := by
  simp only [settingsInstalled]
  simp

@[simp] theorem qualificationExpiry_keeps (s : State) (x : Supply) :
    (qualificationExpiry s x).cli = s.cli ∧ (qualificationExpiry s x).dsp = s.dsp ∧
    (qualificationExpiry s x).tbs = s.tbs ∧ (qualificationExpiry s x).cam = s.cam ∧
    (qualificationExpiry s x).store = s.store ∧ (qualificationExpiry s x).samples = s.samples ∧
    (qualificationExpiry s x).free = s.free ∧ (qualificationExpiry s x).pending = s.pending := by
  simp only [qualificationExpiry]
  (repeat' split) <;> simp

@[simp] theorem fastReturnResult_keeps (s : State) (x : Supply) (code : Nat) :
    (fastReturnResult s x code).cli = s.cli ∧ (fastReturnResult s x code).dsp = s.dsp ∧
    (fastReturnResult s x code).tbs = s.tbs ∧ (fastReturnResult s x code).cam = s.cam ∧
    (fastReturnResult s x code).store = s.store ∧ (fastReturnResult s x code).samples = s.samples ∧
    (fastReturnResult s x code).free = s.free ∧ (fastReturnResult s x code).pending = s.pending := by
  simp only [fastReturnResult]
  (repeat' split) <;> simp

@[simp] theorem bufferReading_keeps (s : State) (code : Nat) :
    (bufferReading s code).cli = s.cli ∧ (bufferReading s code).dsp = s.dsp ∧ (bufferReading s code).tbs = s.tbs ∧
    (bufferReading s code).cam = s.cam ∧ (bufferReading s code).store = s.store ∧
    (bufferReading s code).samples = s.samples ∧ (bufferReading s code).free = s.free ∧
    (bufferReading s code).pending = s.pending := by
  simp only [bufferReading]
  (repeat' split) <;> simp

@[simp] theorem currentReading_keeps (s : State) (r : Nat) :
    (currentReading s r).cli = s.cli ∧ (currentReading s r).dsp = s.dsp ∧ (currentReading s r).tbs = s.tbs ∧
    (currentReading s r).fnu = s.fnu ∧ (currentReading s r).trc = s.trc ∧ (currentReading s r).mbr = s.mbr ∧
    (currentReading s r).msq = s.msq ∧ (currentReading s r).cam = s.cam ∧ (currentReading s r).snd = s.snd ∧
    (currentReading s r).smk = s.smk ∧ (currentReading s r).lmp = s.lmp ∧ (currentReading s r).store = s.store ∧
    (currentReading s r).samples = s.samples ∧ (currentReading s r).free = s.free ∧
    (currentReading s r).pending = s.pending := by
  simp only [currentReading]
  (repeat' split) <;> simp

@[simp] theorem boardReading_keeps (s : State) (code : Nat) :
    (boardReading s code).cli = s.cli ∧ (boardReading s code).dsp = s.dsp ∧ (boardReading s code).tbs = s.tbs ∧
    (boardReading s code).fnu = s.fnu ∧ (boardReading s code).trc = s.trc ∧ (boardReading s code).mbr = s.mbr ∧
    (boardReading s code).msq = s.msq ∧ (boardReading s code).cam = s.cam ∧ (boardReading s code).snd = s.snd ∧
    (boardReading s code).smk = s.smk ∧ (boardReading s code).lmp = s.lmp ∧ (boardReading s code).store = s.store ∧
    (boardReading s code).samples = s.samples ∧ (boardReading s code).free = s.free ∧
    (boardReading s code).pending = s.pending := by
  simp only [boardReading]
  (repeat' split) <;> simp

@[simp] theorem powerReading_keeps (s : State) (c : Channel) (source : Source) (code : Nat) :
    (powerReading s c source code).cli = s.cli ∧ (powerReading s c source code).dsp = s.dsp ∧
    (powerReading s c source code).tbs = s.tbs ∧ (powerReading s c source code).cam = s.cam ∧
    (powerReading s c source code).store = s.store ∧ (powerReading s c source code).samples = s.samples ∧
    (powerReading s c source code).free = s.free ∧ (powerReading s c source code).pending = s.pending := by
  simp only [powerReading]
  (repeat' split) <;> simp

@[simp] theorem coastExpiry_keeps (s : State) :
    (coastExpiry s).cli = s.cli ∧ (coastExpiry s).dsp = s.dsp ∧ (coastExpiry s).tbs = s.tbs ∧
    (coastExpiry s).cam = s.cam ∧ (coastExpiry s).store = s.store ∧ (coastExpiry s).samples = s.samples ∧
    (coastExpiry s).free = s.free ∧ (coastExpiry s).pending = s.pending := by
  simp only [coastExpiry]
  (repeat' split) <;> simp

@[simp] theorem bufferExpiry_keeps (s : State) :
    (bufferExpiry s).cli = s.cli ∧ (bufferExpiry s).dsp = s.dsp ∧ (bufferExpiry s).tbs = s.tbs ∧
    (bufferExpiry s).cam = s.cam ∧ (bufferExpiry s).lmp = s.lmp ∧ (bufferExpiry s).store = s.store ∧
    (bufferExpiry s).samples = s.samples ∧ (bufferExpiry s).free = s.free ∧ (bufferExpiry s).pending = s.pending := by
  simp only [bufferExpiry]
  (repeat' split) <;> simp

@[simp] theorem overExpiry_keeps (s : State) :
    (overExpiry s).cli = s.cli ∧ (overExpiry s).dsp = s.dsp ∧ (overExpiry s).tbs = s.tbs ∧
    (overExpiry s).cam = s.cam ∧ (overExpiry s).lmp = s.lmp ∧ (overExpiry s).store = s.store ∧
    (overExpiry s).samples = s.samples ∧ (overExpiry s).free = s.free ∧ (overExpiry s).pending = s.pending := by
  simp only [overExpiry]
  (repeat' split) <;> simp

@[simp] theorem underExpiry_keeps (s : State) :
    (underExpiry s).cli = s.cli ∧ (underExpiry s).dsp = s.dsp ∧ (underExpiry s).tbs = s.tbs ∧
    (underExpiry s).cam = s.cam ∧ (underExpiry s).lmp = s.lmp ∧ (underExpiry s).store = s.store ∧
    (underExpiry s).samples = s.samples ∧ (underExpiry s).free = s.free ∧ (underExpiry s).pending = s.pending := by
  simp only [underExpiry]
  (repeat' split) <;> simp

@[simp] theorem gapReported_keeps (s : State) (c : Conversion) :
    (gapReported s c).cli = s.cli ∧ (gapReported s c).dsp = s.dsp ∧ (gapReported s c).tbs = s.tbs ∧
    (gapReported s c).fnu = s.fnu ∧ (gapReported s c).trc = s.trc ∧ (gapReported s c).msq = s.msq ∧
    (gapReported s c).cam = s.cam ∧ (gapReported s c).snd = s.snd ∧ (gapReported s c).smk = s.smk ∧
    (gapReported s c).lmp = s.lmp ∧ (gapReported s c).ppm = s.ppm ∧ (gapReported s c).store = s.store ∧
    (gapReported s c).samples = s.samples ∧ (gapReported s c).free = s.free ∧ (gapReported s c).pending = s.pending := by
  simp only [gapReported]
  (repeat' split) <;> simp

@[simp] theorem codeDelivered_keeps (s : State) (c : Conversion) (code : Nat) :
    (codeDelivered s c code).cli = s.cli ∧ (codeDelivered s c code).dsp = s.dsp ∧
    (codeDelivered s c code).tbs = s.tbs ∧ (codeDelivered s c code).cam = s.cam ∧
    (codeDelivered s c code).store = s.store ∧ (codeDelivered s c code).samples = s.samples ∧
    (codeDelivered s c code).free = s.free ∧ (codeDelivered s c code).pending = s.pending := by
  simp only [codeDelivered]
  (repeat' split) <;> simp

/-- A channel other than MOTOR_I reads what stands at its input. -/
theorem codeRead_other (m : Mbr) (c : Channel) (code : BitVec 12) (h : c ≠ .motorI) : codeRead m c code = code := by
  simp [codeRead, h]

/-- The completion of a conversion of a channel other than MOTOR_I leaves the current sense alone. -/
theorem senseRead_other (s : State) (c : Channel) (code : BitVec 12) (h : c ≠ .motorI) : senseRead s c code = s := by
  simp [senseRead, h]

@[simp] theorem senseRead_keeps (s : State) (c : Channel) (code : BitVec 12) :
    (senseRead s c code).cli = s.cli ∧ (senseRead s c code).dsp = s.dsp ∧ (senseRead s c code).tbs = s.tbs ∧
    (senseRead s c code).fnu = s.fnu ∧ (senseRead s c code).trc = s.trc ∧ (senseRead s c code).msq = s.msq ∧
    (senseRead s c code).cam = s.cam ∧ (senseRead s c code).snd = s.snd ∧ (senseRead s c code).smk = s.smk ∧
    (senseRead s c code).lmp = s.lmp ∧ (senseRead s c code).ppm = s.ppm ∧ (senseRead s c code).store = s.store ∧
    (senseRead s c code).samples = s.samples ∧ (senseRead s c code).free = s.free ∧ (senseRead s c code).pending = s.pending := by
  simp only [senseRead]
  (repeat' split) <;> simp

@[simp] theorem arbiterActs_keeps (s : State) :
    (arbiterActs s).cli = s.cli ∧ (arbiterActs s).dsp = s.dsp ∧ (arbiterActs s).tbs = s.tbs ∧
    (arbiterActs s).fnu = s.fnu ∧ (arbiterActs s).trc = s.trc ∧ (arbiterActs s).mbr = s.mbr ∧
    (arbiterActs s).cam = s.cam ∧ (arbiterActs s).snd = s.snd ∧ (arbiterActs s).smk = s.smk ∧
    (arbiterActs s).lmp = s.lmp ∧ (arbiterActs s).ppm = s.ppm ∧ (arbiterActs s).store = s.store ∧
    (arbiterActs s).samples = s.samples ∧ (arbiterActs s).free = s.free ∧ (arbiterActs s).pending = s.pending := by
  simp only [arbiterActs]
  simp

@[simp] theorem conversionDone_keeps (s : State) (code : BitVec 12) :
    (conversionDone s code).cli = s.cli ∧ (conversionDone s code).dsp = s.dsp ∧ (conversionDone s code).tbs = s.tbs ∧
    (conversionDone s code).cam = s.cam ∧ (conversionDone s code).store = s.store ∧
    (conversionDone s code).samples = s.samples ∧ (conversionDone s code).free = s.free ∧
    (conversionDone s code).pending = s.pending := by
  simp only [conversionDone]
  (repeat' split) <;> simp

@[simp] theorem addressInstalled_keeps (s : State) (old : AddressEntry) :
    (addressInstalled s old).cli = s.cli ∧ (addressInstalled s old).tbs = s.tbs ∧
    (addressInstalled s old).cam = s.cam ∧ (addressInstalled s old).snd = s.snd ∧
    (addressInstalled s old).smk = s.smk ∧ (addressInstalled s old).lmp = s.lmp ∧
    (addressInstalled s old).ppm = s.ppm ∧ (addressInstalled s old).store = s.store ∧
    (addressInstalled s old).samples = s.samples ∧ (addressInstalled s old).free = s.free ∧
    (addressInstalled s old).pending = s.pending := by
  simp only [addressInstalled]
  (repeat' split) <;> simp

@[simp] theorem activePut_keeps (s : State) (t : TableId) (bytes : List Byte) :
    (activePut s t bytes).cli = s.cli ∧ (activePut s t bytes).dsp = s.dsp ∧ (activePut s t bytes).fnu = s.fnu ∧
    (activePut s t bytes).trc = s.trc ∧ (activePut s t bytes).mbr = s.mbr ∧ (activePut s t bytes).msq = s.msq ∧
    (activePut s t bytes).cam = s.cam ∧ (activePut s t bytes).snd = s.snd ∧ (activePut s t bytes).smk = s.smk ∧
    (activePut s t bytes).lmp = s.lmp ∧ (activePut s t bytes).ppm = s.ppm ∧ (activePut s t bytes).store = s.store ∧
    (activePut s t bytes).samples = s.samples ∧ (activePut s t bytes).free = s.free ∧
    (activePut s t bytes).pending = s.pending := by
  simp only [activePut]
  simp

@[simp] theorem ownerInstalls_keeps (old s : State) (t : TableId) :
    (ownerInstalls old s t).cli = s.cli ∧ (ownerInstalls old s t).tbs = s.tbs ∧ (ownerInstalls old s t).cam = s.cam ∧
    (ownerInstalls old s t).store = s.store ∧
    (ownerInstalls old s t).samples = s.samples ∧ (ownerInstalls old s t).free = s.free ∧
    (ownerInstalls old s t).pending = s.pending := by
  simp only [ownerInstalls]
  (repeat' split) <;> simp

@[simp] theorem tableInstalled_keeps (s : State) (t : TableId) (bytes : List Byte) :
    (tableInstalled s t bytes).cli = s.cli ∧ (tableInstalled s t bytes).cam = s.cam ∧
    (tableInstalled s t bytes).store = s.store ∧
    (tableInstalled s t bytes).samples = s.samples ∧ (tableInstalled s t bytes).free = s.free ∧
    (tableInstalled s t bytes).pending = s.pending := by
  simp only [tableInstalled]
  simp

@[simp] theorem writeBegun_keeps (s : State) (t : TableId) :
    (writeBegun s t).cli = s.cli ∧ (writeBegun s t).dsp = s.dsp ∧ (writeBegun s t).fnu = s.fnu ∧
    (writeBegun s t).trc = s.trc ∧ (writeBegun s t).mbr = s.mbr ∧ (writeBegun s t).msq = s.msq ∧
    (writeBegun s t).cam = s.cam ∧ (writeBegun s t).snd = s.snd ∧ (writeBegun s t).smk = s.smk ∧
    (writeBegun s t).lmp = s.lmp ∧ (writeBegun s t).ppm = s.ppm ∧ (writeBegun s t).samples = s.samples ∧
    (writeBegun s t).free = s.free ∧ (writeBegun s t).pending = s.pending := by
  simp only [writeBegun]
  simp

@[simp] theorem tableCommitted_keeps (s : State) (t : TableId) :
    (tableCommitted s t).cli = s.cli ∧ (tableCommitted s t).cam = s.cam ∧
    (tableCommitted s t).samples = s.samples ∧ (tableCommitted s t).free = s.free ∧
    (tableCommitted s t).pending = s.pending := by
  simp only [tableCommitted]
  simp

@[simp] theorem nvCompleted_keeps (s : State) :
    (nvCompleted s).cli = s.cli ∧ (nvCompleted s).dsp = s.dsp ∧ (nvCompleted s).fnu = s.fnu ∧
    (nvCompleted s).trc = s.trc ∧ (nvCompleted s).mbr = s.mbr ∧ (nvCompleted s).msq = s.msq ∧
    (nvCompleted s).cam = s.cam ∧ (nvCompleted s).snd = s.snd ∧ (nvCompleted s).smk = s.smk ∧
    (nvCompleted s).lmp = s.lmp ∧ (nvCompleted s).ppm = s.ppm ∧ (nvCompleted s).samples = s.samples ∧
    (nvCompleted s).free = s.free ∧ (nvCompleted s).pending = s.pending := by
  simp only [nvCompleted]
  (repeat' split) <;> simp

end Sys2Proof.Machine
end

