-- ==== Sys2Proof/Laws/TractionEvents.lean ====
section
/-!
SUPPORT. Once for all: what a demand handed to MBR does, and what the end of an event at TRC does.
-/
namespace Sys2Proof.Laws

open Sys2Proof.Machine

/-- What MBR, MSQ and the outstanding request can become when MBR acts on a demand: untouched, or the gap abandoned. -/
def GapStands (s t : State) : Prop :=
  (t.msq = s.msq ∧ t.trc = s.trc) ∨
    (t.msq = gapWithdraw s.msq ∧ t.trc = { s.trc with outstanding := false } ∧ s.mbr.gap ≠ .noGap)

theorem gapStands_refl (s : State) : GapStands s s := .inl ⟨rfl, rfl⟩

theorem gapStands_abandonGap (s : State) : GapStands s (abandonGap s) := by
  unfold abandonGap
  split
  · exact gapStands_refl s
  · rename_i h
    exact .inr ⟨rfl, rfl, h⟩

/-- An operation of MBR's own after the gap has been looked at. -/
theorem gapStands_after {s t u : State} (h : GapStands s t) (hm : u.msq = t.msq) (ht : u.trc = t.trc) :
    GapStands s u := by
  unfold GapStands at *
  rw [hm, ht]
  exact h

theorem gapStands_takeMode (s : State) (m : Mode) : GapStands s (takeMode s m) := by
  unfold takeMode
  split <;> first
    | exact gapStands_refl s
    | (refine gapStands_after (gapStands_refl s) ?_ ?_ <;> (simp; done))
    | (refine gapStands_after (gapStands_abandonGap s) ?_ ?_ <;> simp)

theorem gapStands_takeDirection (s : State) : GapStands s (takeDirection s) := by
  unfold takeDirection
  split <;> first
    | exact gapStands_refl s
    | (refine gapStands_after (gapStands_abandonGap s) ?_ ?_ <;> simp)

/-- The three parts of a demand that MBR keeps. -/
def held (m : Mbr) : Mode × Dir × Nat := (m.mode, m.drive, m.demanded)

theorem abandonGap_held (s : State) : held (abandonGap s).mbr = held s.mbr := by
  unfold abandonGap
  split <;> rfl

theorem bridgeEmergency_held (s : State) : held (bridgeEmergency s).mbr = held s.mbr := by
  unfold bridgeEmergency
  split <;> rfl

theorem takeMode_held (s : State) (m : Mode) : held (takeMode s m).mbr = held s.mbr := by
  unfold takeMode
  split <;> first
    | rfl
    | exact abandonGap_held s
    | exact bridgeEmergency_held s
    | exact (bridgeEmergency_held _).trans (abandonGap_held s)
    | exact bridgeEmergency_held (endTrip s)

theorem takeDirection_held (s : State) : held (takeDirection s).mbr = held s.mbr := by
  unfold takeDirection
  split <;> first
    | rfl
    | exact abandonGap_held s

/-- A demand is kept by MBR whatever else it does. -/
theorem takeDemand_held (s : State) (m : Mode) (d : Dir) (duty : Nat) (atOnce : Bool) :
    held (takeDemand s m d duty atOnce).mbr = (m, d, duty) := by
  unfold takeDemand
  simp only
  split
  · exact takeMode_held _ m
  · split
    · exact takeDirection_held _
    · split
      · unfold takeDutyAtOnce; split <;> rfl
      · rfl

theorem gapStands_takeDemand (s : State) (m : Mode) (d : Dir) (duty : Nat) (atOnce : Bool) :
    GapStands s (takeDemand s m d duty atOnce) := by
  unfold takeDemand
  simp only
  split
  · exact gapStands_takeMode (s.setMbr _) m
  · split
    · exact gapStands_takeDirection (s.setMbr _)
    · split
      · unfold takeDutyAtOnce; split <;> exact gapStands_refl s
      · exact gapStands_refl s

/-- What handing a demand to MBR does: MBR holds it, a gap may be abandoned, and nothing else is touched. -/
theorem handDemand_spec (s : State) (atOnce : Bool) :
    DemandSafe (handDemand s atOnce) ∧ GapStands s (handDemand s atOnce) ∧
      SameBut [.trc, .mbr, .msq] s (handDemand s atOnce) := by
  have trcSame : ∀ t, GapStands s t → t.trc.state = s.trc.state ∧ t.trc.drive = s.trc.drive ∧ t.trc.duty = s.trc.duty := by
    intro t h
    rcases h with ⟨-, h⟩ | ⟨-, h, -⟩ <;> simp [h]
  refine ⟨?_, ?_, ?_⟩
  · have hg : GapStands s (handDemand s atOnce) := by
      unfold handDemand
      split
      · exact gapStands_takeDemand ..
      · exact gapStands_refl s
    obtain ⟨h1, h2, h3⟩ := trcSame _ hg
    have hd : demandedDuty (handDemand s atOnce).trc = demandedDuty s.trc := by simp only [demandedDuty, h1, h3]
    rw [DemandSafe, h1, h2, hd]
    unfold handDemand
    split
    · have := takeDemand_held s (demandedMode s.trc.state) s.trc.drive (demandedDuty s.trc) atOnce
      simpa [held] using this
    · rename_i h
      simp only [demandChanged, Bool.or_eq_true, decide_eq_true_eq, not_or, Decidable.not_not] at h
      exact ⟨h.1.1.1.symm, h.1.1.2.symm, h.1.2.symm⟩
  · unfold handDemand
    split
    · exact gapStands_takeDemand ..
    · exact gapStands_refl s
  · intro p hp
    cases p <;> simp_all [partSame]

/-- TRC at the end of an event, before the demand is handed over. -/
def endedTrc (before : Trc) (tick work : Bool) (s : State) : Trc :=
  let changed := s.trc.state ≠ before.state
  let s := followDirection s
  let s := if tick || changed then testBemfTimer s else s
  (if tick || work || changed then testStall s else s).trc

/-- What the end of an event at TRC does. -/
theorem tractionEnd_spec (before : Trc) (tick work atOnce : Bool) (s : State) :
    let t := tractionEnd before tick work atOnce s
    let w := endedTrc before tick work s
    t.trc = { w with published := tractionConditions w, outstanding := t.trc.outstanding } ∧
      t.fnu = { s.fnu with waiting := s.fnu.waiting ++
                  (if tractionConditions w ≠ s.trc.published ∨ w.drive ≠ before.drive then
                    [.traction (tractionConditions w) w.drive] else []) } ∧
      DemandSafe t ∧
      (t.msq = s.msq ∧ t.trc.outstanding = s.trc.outstanding ∨
        t.msq = gapWithdraw s.msq ∧ t.trc.outstanding = false ∧ s.mbr.gap ≠ .noGap) ∧
      SameBut [.fnu, .trc, .mbr, .msq] s t := by
  intro t w
  let v : State :=
    let changed := s.trc.state ≠ before.state
    let s := followDirection s
    let s := if tick || changed then testBemfTimer s else s
    if tick || work || changed then testStall s else s
  have hv : v.trc = w := rfl
  have ht : t = handDemand (publishTraction before.drive v) atOnce := rfl
  have keep : v.fnu = s.fnu ∧ v.msq = s.msq ∧ v.mbr = s.mbr ∧ v.trc.outstanding = s.trc.outstanding ∧
      v.trc.published = s.trc.published := by
    simp only [v, followDirection, testBemfTimer, testStall]
    (repeat' split) <;> simp
  obtain ⟨k1, k2, k3, k4, k5⟩ := keep
  have pub : (publishTraction before.drive v).trc = { w with published := tractionConditions w } ∧
      (publishTraction before.drive v).fnu = { s.fnu with waiting := s.fnu.waiting ++
        (if tractionConditions w ≠ s.trc.published ∨ w.drive ≠ before.drive then
          [.traction (tractionConditions w) w.drive] else []) } ∧
      (publishTraction before.drive v).msq = s.msq ∧ (publishTraction before.drive v).mbr = s.mbr := by
    have k5' : w.published = s.trc.published := k5
    simp only [publishTraction, hv, k5']
    by_cases hc : tractionConditions w = s.trc.published
    · by_cases hd : w.drive = before.drive
      · rw [if_neg (by simp [hc, hd]), if_neg (by simp [hc, hd]), List.append_nil, hc, hv, k1]
        refine ⟨?_, rfl, k2, k3⟩
        rw [← k5']
      · simp [hc, hd, k1, k2, k3, publish]
    · simp [hc, k1, k2, k3, publish]
  obtain ⟨p1, p2, p3, p4⟩ := pub
  obtain ⟨d1, d2, d3⟩ := handDemand_spec (publishTraction before.drive v) atOnce
  have hf : t.fnu = (publishTraction before.drive v).fnu := d3 .fnu (by simp)
  refine ⟨?_, by rw [hf, p2], by rw [ht]; exact d1, ?_, ?_⟩
  · rcases d2 with ⟨-, h⟩ | ⟨-, h, -⟩ <;> rw [← ht] at h <;> rw [h, p1]
  · rcases d2 with ⟨h1, h2⟩ | ⟨h1, h2, h3⟩ <;> rw [← ht] at h1 h2
    · left
      rw [h1, h2, p1, p3]
      exact ⟨rfl, k4⟩
    · right
      rw [h1, h2, p3]
      exact ⟨rfl, rfl, by rwa [p4] at h3⟩
  · have hs := tractionEnd_keeps before tick work atOnce s
    intro p hp
    cases p <;> simp_all only [partSame, t, List.mem_cons, reduceCtorEq, not_true, true_or, or_true]

end Sys2Proof.Laws
end

