-- ==== Sys2Proof/WellFormed.lean ====
section
/-!
DEFINITION. When a command's operands are ones that the outside world can bring. Most operands are in range by their
type (a byte, a 12-bit code, one of eight outputs, one of two supplies).
-/
namespace Sys2Proof

/-- An edge on CAM_IN comes within one cam tick of the last one: 2 ms (R133). -/
def edgeWithinTick (offset : Nat) : Bool := offset ≤ 2000

/-- The operands of a command are in range. -/
def wellFormed (i : Instr) : Bool :=
  match i with
  | .camEdge offset => edgeWithinTick offset
  | .characterReceived _ _ | .brokenCharacter | .interByteTimerExpiry | .replyFrameTaken | .drive | .haltNormal
  | .haltEmergency | .func | .statusReq | .cfgOpen | .cfgPoint | .cfgWrite | .cfgRead | .cfgCommit | .cfgClose
  | .nvWriteComplete | .sampleErase | .sampleWrite | .eraseComplete | .programComplete | .resetNormal
  | .resetFactory | .factoryRestoreComplete | .powerOnReset _ | .brownoutReset _ | .resetRelease | .replyFrameSent
  | .relayFrameSent | .commandLossTimerExpiry | .rampTick | .bemfTimerExpiry | .stallTimerExpiry | .pwmPeriodEnd
  | .settleTimerExpiry | .overcurrentTrip _ | .retryTimerExpiry | .tripFreeTimerExpiry | .conversionComplete _
  | .scanTimerExpiry | .camTick | .silenceWatchElapsed | .virtualChuff | .outputSample _
  | .smokeRequestTimerExpiry | .ageTimerExpiry | .puffTimerExpiry | .flickerAdvance | .blinkTimerExpiry _
  | .softTimerExpiry _ | .presenceGained _ | .presenceLost _ | .qualificationTimerExpiry _ | .coastTimerExpiry
  | .bufferRequestTimerExpiry | .overTimerExpiry | .underTimerExpiry => true

end Sys2Proof
end

