-- ==== Sys2Proof/Tests/Slice0.lean ====
section
/-!
SUPPORT. Tests of the commands on small states, with the results that the manual's worked examples and tables give, and for
every statement a state and operands that meet its hypotheses.
-/
namespace Sys2Proof.Tests

open Sys2Proof.Machine

set_option Elab.async false

/-! ### Small states -/

/-- The outcome is a next state with the property. -/
def gives (o : Host.Outcome State Fault Refusal) (p : State → Bool) : Bool :=
  match o with
  | .next t => p t
  | .fault _ => false
  | .refused _ => false

/-- The part on track power, right after NORMAL has been announced. -/
def normal : State :=
  { State.reset with
    trc := { trcReset with dcap := 1023 }
    snd := { sndReset with on := true, power := .normal, cap := 255 }
    smk := { smkReset with hmax := 230, power := .normal }
    lmp := { lmpReset with power := .normal }
    ppm := { ppmReset noSupply noSupply .powerOn .running with
      track := { voltage := 2000, present := true, qualification := .qualified, timer := none, fastReturn := false }
      active := .track, power := .normal, dcap := 1023, hmax := 230, soundCap := 255 } }

/-- The settings with bytes put in at an offset. -/
def setting (offset : Nat) (b : List Byte) (s : State) : State :=
  s.setTbs { s.tbs with active := { s.tbs.active with settings := splice s.tbs.active.settings offset b } }

/-- The anchors 6 and 7 of the target example (section 5.1). -/
def committedSpeed : List Byte := splice defaultSpeed 12 [0x01, 0x60, 0x01, 0x91]

/-- The address table of the acceptance example (section 2.4). -/
def acceptTable : List Byte :=
  [0x81, 0x23, 0, 0, 0, 63, 0xB0, 0x28, 0, 0, 0, 7, 0xC2, 0x00, 0x0F, 0x00, 4, 7, 0xE1, 0x20, 0x0F, 0xF0, 0, 0] ++
    List.replicate 24 0

/-- The part with the address table of the acceptance example. -/
def accepting : State := normal.setTbs { normal.tbs with active := { normal.tbs.active with address := acceptTable } }

/-- One frame at the head of the inbound queue. -/
def head (kind address : Nat) (payload : List Byte) (s : State) : State :=
  s.setCli { s.cli with inbound := [makeFrame kind address payload] }

/-- The locomotive of the regulation example: armed, RUNNING forward at Vint 385 with the integral at 70,000. -/
def driving : State :=
  { normal with
    tbs := { normal.tbs with active := { normal.tbs.active with speed := committedSpeed } }
    trc := { trcReset with
      state := .running, armed := true, step := 100, target := 385, ramp := 24640, integral := 70000, duty := 500,
      dcap := 1023, bemfTimer := some 10000
      published := { tractionConditionsReset with moving := true } }
    mbr := { mbrReset with
      mode := .drive, bridge := .drive, demanded := 500, applied := 500, period := some ⟨1, 50000, 0, 0, false⟩, periods := 1,
      tripLevel := 120, tripFreeTimer := some 2000000 }
    fnu := { fnuReset with conditions := { conditionsReset with moving := true } } }

/-- A conversion running. -/
def converting (c : Conversion) (s : State) : State := s.setMsq { s.msq with converting := some c }

/-- The replies that wait. -/
def repliesAre (t : State) (l : List Frame) : Bool := t.cli.replies = l

/-! ### Well-formedness -/

theorem test_edge_within_a_tick : wellFormed (.camEdge 2000) = true ∧ wellFormed (.camEdge 2001) = false := by decide

theorem test_no_row_has_bits : decodeTableWord 16 0x1234 = none ∧ State.reset.withFetchWord 16 0x1234 = State.reset :=
  ⟨rfl, rfl⟩

theorem test_step_takes_the_front :
    step (normal.setPending [.camTick, .rampTick]) = exec .camTick (normal.setPending [.rampTick]) := rfl

/-! ### The link (chapter 1) -/

/-- The check byte example of section 1.2. -/
theorem test_check_byte : makeFrame 0 291 [0, 100] = [0x01, 0x23, 0x02, 0x00, 0x64, 0x76] := by decide

/-- The byte 0x76 as R1 orders its bits, least significant first, with the marker clear; and the same with its stop bit
wrong (R8). -/
theorem test_character_levels :
    characterLevels false 0x76 = [false, false, true, true, false, true, true, true, false, false, true] ∧
      characterHeard (characterLevels true 0x76) = some (.characterReceived 0x76 true) ∧
      characterHeard ((characterLevels true 0x76).take 10 ++ [false]) = some .brokenCharacter ∧
      characterHeard (List.replicate 11 true) = none := by
  decide +kernel

theorem test_last_character_completes :
    gives
      (exec (.characterReceived 0x76 false)
        (normal.setCli { normal.cli with
          assembler := some ⟨[0x01, 0x23, 0x02, 0x00, 0x64], some 6⟩, interByte := some 5000 }))
      (fun t => t.cli.inbound = [makeFrame 0 291 [0, 100]] && t.cli.assembler = none && t.cli.interByte = none) =
      true := by
  decide +kernel

theorem test_long_length_is_truncated :
    gives (exec (.characterReceived 17 false) (normal.setCli { normal.cli with assembler := some ⟨[1, 2], none⟩ }))
      (fun t => t.cli.assembler = none && t.cli.truncated) = true := by
  decide +kernel

theorem test_broken_character :
    gives (exec .brokenCharacter (normal.setCli { normal.cli with assembler := some ⟨[1], none⟩ }))
      (fun t => t.cli.assembler = none && t.cli.truncated) = true := by
  decide +kernel

theorem test_interByte_expiry :
    gives
      (exec .interByteTimerExpiry
        (normal.setCli { normal.cli with assembler := some ⟨[1], none⟩, interByte := some 5000 }))
      (fun t => t.cli.assembler = none && t.cli.truncated && t.cli.interByte = none) = true := by
  decide +kernel

/-- The queue overload example of section 1.5: asserted at 6, released at 3. -/
theorem test_hold_thresholds :
    (inboundJoin { cliReset with inbound := List.replicate 5 [] } []).hold = true ∧
      (inboundTake { cliReset with inbound := List.replicate 5 [], hold := true } (List.replicate 4 [])).hold = true ∧
      (inboundTake { cliReset with inbound := List.replicate 4 [], hold := true } (List.replicate 3 [])).hold = false ∧
      (inboundJoin { cliReset with inbound := List.replicate 8 [] } []).frameDropped = true := by
  decide

/-- The relay displacement example of section 1.7. -/
theorem test_relay_displacement :
    (relayPlace { cliReset with relays := [[1], [2], [3], [4]], relaySending := true } [5]).relays =
      [[1], [3], [4], [5]] := by
  decide

theorem test_reply_frame_sent :
    gives (exec .replyFrameSent (normal.setCli { normal.cli with replies := [[1], [2]], replySending := true }))
      (fun t => t.cli.replies = [[2]] && t.cli.replySending) = true := by
  decide +kernel

theorem test_relay_frame_sent :
    gives (exec .relayFrameSent (normal.setCli { normal.cli with relays := [[1]], relaySending := true }))
      (fun t => t.cli.relays = [] && !t.cli.relaySending) = true := by
  decide +kernel

/-! ### Dispatch (the acceptance example of section 2.4, the command loss example of section 2.6) -/

theorem test_reply_kind_is_relayed :
    gives (exec .replyFrameTaken (head 13 295 [0, 0, 0, 0] accepting))
      (fun t => t.cli.inbound = [] && t.cli.relays = [makeFrame 13 295 [0, 0, 0, 0]] && t.trc = accepting.trc) = true := by
  decide +kernel

theorem test_drive_of_the_reversed_owner :
    gives (exec .drive (head 0 40 [0, 100] (accepting.setTrc { accepting.trc with armed := true })))
      (fun t => t.trc.stated = .rev && t.trc.step = 100 && t.dsp.lossTimer = some 2000000 && t.cli.relays = []) =
      true := by
  decide +kernel

theorem test_drive_of_another_entry :
    gives (exec .drive (head 0 291 [0, 50] (accepting.setTrc { accepting.trc with armed := true })))
      (fun t => t.trc.step = 0 && t.dsp.lossTimer = none && t.cli.relays = [makeFrame 0 291 [0, 50]]) = true := by
  decide +kernel

theorem test_halt_normal_rearms :
    gives (exec .haltNormal (head 1 3 [0] (normal.setTrc { normal.trc with state := .emergency })))
      (fun t => t.trc.state = .idle && t.trc.armed) = true := by
  decide +kernel

theorem test_halt_emergency_of_a_group :
    gives (exec .haltEmergency (head 1 600 [1] { driving with tbs := accepting.tbs }))
      (fun t => t.trc.state = .emergency && t.trc.ramp = 0 && !t.trc.armed && t.mbr.bridge = .brake &&
        t.dsp.lossTimer = none) = true := by
  decide +kernel

theorem test_func_keeps_to_the_window :
    gives (exec .func (head 2 600 [0, 0xFF] accepting)) (fun t => t.fnu.functions = 0xF0) = true := by
  decide +kernel

theorem test_status_through_a_consist_is_discarded :
    gives (exec .statusReq (head 3 40 [] accepting)) (fun t => t.cli.replies = [] && t.cli.inbound = []) = true := by
  decide +kernel

theorem test_status_is_answered :
    gives (exec .statusReq (head 3 291 [] accepting))
      (fun t => t.cli.replies.length = 1 && t.cli.relays.length = 1 &&
        t.cli.replies.all (fun f => frameKind f = 14 && frameAddress f = 291 && byteAt (framePayload f) 0 = 0x11)) =
      true := by
  decide +kernel

theorem test_command_loss :
    gives (exec .commandLossTimerExpiry (driving.setDsp { lossTimer := some 2000000, signalLost := false }))
      (fun t => t.dsp.signalLost && t.trc.state = .failsafe && !t.trc.armed && t.trc.ramp = 24640 && t.trc.duty = 385) =
      true := by
  decide +kernel

/-! ### Tables (chapter 3) -/

/-- The check word example of section 3.6, and the default SPEED table's of section 3.7. -/
theorem test_check_words : checkWord defaultLamps = 984 ∧ checkWord defaultSpeed = 1818 ∧ checkWord committedSpeed = 1739 := by
  decide +kernel

/-- The settings commit example of section 3.4. -/
theorem test_settings_are_put_right :
    let b := splice (splice (splice defaultSettings 9 [40, 60]) 35 [0x0F, 0xFF]) 41 (bytes16 3000)
    let c := settingsPutRight b
    byteAt c 9 = 40 ∧ byteAt c 10 = 39 ∧ word16At c 35 = 4094 ∧ word16At c 41 = 4095 := by
  decide +kernel

theorem test_open :
    gives (exec .cfgOpen (head 4 3 [2] normal))
      (fun t => t.tbs.openTable = some .speed && repliesAre t [makeFrame 13 3 [4, 0, 0, 34]]) = true := by
  decide +kernel

/-- SPEED open as in the editing session of section 3.7, at pointer 12. -/
def editing : State :=
  normal.setTbs { normal.tbs with openTable := some .speed, pointer := 12, edit := splice normal.tbs.edit 0 defaultSpeed }

theorem test_point :
    gives (exec .cfgPoint (head 6 3 [0, 14] editing))
      (fun t => t.tbs.pointer = 14 && repliesAre t [makeFrame 13 3 [6, 0, 0, 14]]) = true := by
  decide +kernel

theorem test_write :
    gives (exec .cfgWrite (head 5 3 [0x01, 0x60, 0x01, 0x2C] editing))
      (fun t => t.tbs.pointer = 16 && anchor t.tbs.edit 6 = 352 && anchor t.tbs.edit 7 = 300 &&
        repliesAre t [makeFrame 13 3 [5, 0, 0, 16]]) = true := by
  decide +kernel

theorem test_read :
    gives (exec .cfgRead (head 7 3 [2, 0, 12, 4] editing))
      (fun t => repliesAre t [makeFrame 15 3 [2, 0, 12, 0x01, 0x80, 0x01, 0xC0]]) = true := by
  decide +kernel

theorem test_commit_of_falling_anchors :
    gives
      (exec .cfgCommit
        (head 8 3 [] (editing.setTbs { editing.tbs with edit := splice editing.tbs.edit 12 [0x01, 0x60, 0x01, 0x2C] })))
      (fun t => t.tbs.openTable = some .speed && repliesAre t [makeFrame 13 3 [8, 4, 0, 7]]) = true := by
  decide +kernel

theorem test_commit :
    gives
      (exec .cfgCommit
        (head 8 3 [] (editing.setTbs { editing.tbs with edit := splice editing.tbs.edit 0 committedSpeed })))
      (fun t => t.tbs.openTable = none && t.tbs.active.speed = committedSpeed && t.tbs.writing = some .speed &&
        t.store.speed.mark && repliesAre t [makeFrame 13 3 (8 :: 0 :: bytes16 1739)]) = true := by
  decide +kernel

theorem test_close :
    gives (exec .cfgClose (head 9 3 [] editing))
      (fun t => t.tbs.openTable = none && repliesAre t [makeFrame 13 3 [9, 0, 0, 0]]) = true := by
  decide +kernel

theorem test_nonvolatile_write :
    gives (exec .nvWriteComplete (normal.setTbs { normal.tbs with writing := some .lamps }))
      (fun t => t.tbs.writing = none && t.store.lamps.check = 984 && !t.store.lamps.mark) = true := by
  decide +kernel

/-! ### Traction (chapter 5) -/

/-- The target example of section 5.1. -/
theorem test_targets :
    tableTarget defaultSpeed 1 = 4 ∧ tableTarget defaultSpeed 7 = 30 ∧ tableTarget defaultSpeed 8 = 34 ∧
      tableTarget defaultSpeed 60 = 256 ∧ tableTarget defaultSpeed 239 = 1019 ∧ tableTarget defaultSpeed 240 = 1023 ∧
      tableTarget committedSpeed 100 = 385 := by
  decide +kernel

/-- A tick of the ramp example of section 5.2, under ACCEL 40. -/
theorem test_ramp_tick :
    gives (exec .rampTick (setting 0 [40] (driving.setTrc { driving.trc with ramp := 40 })))
      (fun t => t.trc.ramp = 80 && t.trc.published.accelerating) = true := by
  decide +kernel

/-- Tick 68 of the reversal example of section 5.3. -/
theorem test_reversal_at_rest :
    gives
      (exec .rampTick
        (driving.setTrc { driving.trc with state := .reversing, ramp := 16, target := 4, step := 1, stated := .rev }))
      (fun t => t.trc.ramp = 0 && t.trc.state = .running && t.trc.drive = .rev && t.mbr.drive = .rev) = true := by
  decide +kernel

theorem test_back_emf_request :
    gives (exec .bemfTimerExpiry driving)
      (fun t => t.trc.outstanding && t.mbr.gap = .pending && t.msq.gap = .offered && t.trc.bemfTimer = some 10000) =
      true := by
  decide +kernel

/-- The stall of the state walk of section 5.8. -/
theorem test_stall :
    gives (exec .stallTimerExpiry (driving.setTrc { driving.trc with stallTimer := some 2000000 }))
      (fun t => t.trc.state = .stalled && !t.trc.armed && t.trc.ramp = 0 && t.mbr.bridge = .off) = true := by
  decide +kernel

/-- The regulation example of section 5.5: raw code 1,200 with KP 48 and KI 20. -/
theorem test_regulation :
    gives
      (exec (.conversionComplete 1200)
        (setting 4 [48, 20]
          (((converting ⟨.bemf, .gap, .trc, false⟩ driving).setMbr
            { driving.mbr with bridge := .gap, gap := .ready, period := none, applied := 0 }).setTrc
              { driving.trc with outstanding := true })))
      (fun t => t.trc.speed = 300 && t.trc.integral = 71700 && t.trc.duty = 535 && t.trc.load = 150 && t.trc.loaded &&
        t.mbr.bridge = .drive) = true := by
  decide +kernel

/-! ### The bridge (chapter 6) -/

/-- The gap example of section 6.4 at 50 µs. -/
theorem test_gap_starts :
    gives (exec .pwmPeriodEnd (driving.setMbr { driving.mbr with gap := .pending }))
      (fun t => t.mbr.bridge = .gap && t.mbr.gap = .settling && t.mbr.applied = 0 && t.mbr.settleTimer = some 300) =
      true := by
  decide +kernel

/-- The gap example at 350 µs, with the converter IDLE. -/
theorem test_gap_ready :
    gives
      (exec .settleTimerExpiry
        ((driving.setMbr { driving.mbr with bridge := .gap, gap := .settling, settleTimer := some 300, period := none }).setMsq
          { driving.msq with gap := .offered }))
      (fun t => t.mbr.gap = .ready && t.msq.gap = .converting) = true := by
  decide +kernel

theorem test_trip :
    gives (exec (.overcurrentTrip 6001) driving)
      (fun t => t.mbr.bridge = .tripped && t.trc.state = .tripped && t.trc.ramp = 24640 && t.mbr.awaited) = true ∧
      gives (exec (.overcurrentTrip 6000) driving) (fun t => t = driving) = true := by
  decide +kernel

/-- The repeated trips example of section 6.5 at 0.02 ms, and its last line's short. -/
theorem test_judgements :
    let tripped := (converting ⟨.motorI, .inject, .mbr, false⟩ driving).setMbr
      { driving.mbr with bridge := .tripped, awaited := true, period := none, applied := 0 }
    gives (exec (.conversionComplete 2900) tripped)
        (fun t => t.mbr.bridge = .tripped && t.mbr.overloads = 1 && t.mbr.retryTimer = some 100000) = true ∧
      gives (exec (.conversionComplete 3950) tripped)
        (fun t => t.mbr.bridge = .off && t.mbr.lockoutShort && t.trc.state = .lockout) = true := by
  decide +kernel

/-- The sense holding after a trip: the injected conversion brings the code, and a scan in TRIPPED reads the same (R110). -/
theorem test_scan_reads_the_held_current :
    let held (k : Option (BitVec 12)) (r : Source) (q : Requester) := (converting ⟨.motorI, r, q, false⟩ driving).setMbr
      { driving.mbr with bridge := .tripped, currentHold := true, heldCode := k, period := none, applied := 0 }
    gives (exec (.conversionComplete 2900) (held none .inject .mbr))
        (fun t => resultOf t.msq .motorI = 2900 && t.mbr.heldCode = some 2900) = true ∧
      gives (exec (.conversionComplete 7) (held (some 2900) .scan .scan))
        (fun t => resultOf t.msq .motorI = 2900 && t.mbr.heldCode = some 2900) = true := by
  decide +kernel

/-- A conversion begun under the hold reads the held current although the bridge drives again before it completes (R117). -/
theorem test_sample_outlives_the_hold :
    let s := (converting ⟨.motorI, .scan, .scan, false⟩ driving).setMbr
      { driving.mbr with bridge := .tripped, currentHold := true, heldCode := some 2900, period := none, applied := 0 }
    (bridgeStart s).mbr.currentHold = false ∧
      gives (exec (.conversionComplete 7) (bridgeStart s)) (fun t => resultOf t.msq .motorI = 2900) = true := by
  decide +kernel

/-- The fourth overload by a full slot is a lockout at once, told from a short by its flag (R110, R112). -/
theorem test_fourth_overload :
    gives
      (exec (.overcurrentTrip 6001)
        ((driving.setMsq { driving.msq with slot := .waiting ⟨.trackV, .ppm, true⟩ }).setMbr
          { driving.mbr with overloads := 3 }))
      (fun t => t.mbr.bridge = .off && t.trc.state = .lockout && t.mbr.overloads = 0 && !t.mbr.lockoutShort &&
        t.mbr.retryTimer = none) = true := by
  decide +kernel

/-- A high side opened by an at-once demand stays open under a longer on-time, until the next period start (R102). -/
theorem test_high_side_stays_open :
    let s := driving.setMbr { driving.mbr with demanded := 1023, applied := 1023, period := some ⟨1, 50000, 300, 1, true⟩ }
    closedSwitches s.mbr 300 = [] ∧ closedSwitches (startPeriod s).mbr 300 = [.highA, .lowB] := by
  decide +kernel

/-- At duty 0 an at-once demand opens the high side whatever the time past (R102). -/
theorem test_duty_zero_opens_at_once (p : PwmPeriod) : (dutyTakenAtOnce p 0).opened = true := by simp [dutyTakenAtOnce]

theorem test_retry :
    gives
      (exec .retryTimerExpiry
        ((driving.setTrc { driving.trc with state := .tripped }).setMbr
          { driving.mbr with bridge := .tripped, retryTimer := some 100000, overloads := 1, period := none }))
      (fun t => t.mbr.bridge = .drive && t.mbr.overloads = 1 && t.trc.state = .running && t.trc.ramp = 24640) = true := by
  decide +kernel

theorem test_trip_free :
    gives (exec .tripFreeTimerExpiry (driving.setMbr { driving.mbr with overloads := 2 }))
      (fun t => t.mbr.overloads = 0 && t.mbr.tripFreeTimer = none) = true := by
  decide +kernel

/-- The arbitration example of section 7.7 at 0 µs. -/
theorem test_scan_pass :
    gives (exec .scanTimerExpiry normal)
      (fun t => t.msq.pass = [.motorI, .trackV, .batteryV, .bufferV, .supplyI, .boardT] &&
        t.msq.converting = some ⟨.motorI, .scan, .scan, false⟩) = true := by
  decide +kernel

/-! ### Cam, sound, smoke and lamps (chapters 8 to 10) -/

/-- The sensor example of section 8.6 at 171 ms, just before 172 ms. -/
def beating : State :=
  driving.setCam { camReset with
    time := 170000, moving := true, accumulator := 1047200, previousEdge := some 1000, source := .virtual }

theorem test_virtual_chuff :
    gives (exec .camTick beating) (fun t => t.cam.accumulator = 10944 && t.cam.index = 1) = true ∧
      gives (exec .virtualChuff beating) (fun t => t.cam.accumulator = 10944 && t.cam.index = 1) = true := by
  decide +kernel

theorem test_edge_counts :
    gives (exec (.camEdge 1000) beating)
      (fun t => t.cam.qualification = .qualifying 1 && t.cam.previousEdge = some 171000 &&
        t.cam.accumulator = 1047200) = true := by
  decide +kernel

/-- The sensor example at 681 ms. -/
theorem test_fourth_edge_qualifies :
    gives
      (exec (.camEdge 1000)
        (setting 26 [1] (beating.setCam { beating.cam with
          time := 680000, previousEdge := some 511000, qualification := .qualifying 3, index := 3 })))
      (fun t => t.cam.qualification = .qualified && t.cam.source = .sensor && t.cam.accumulator = 0 && t.cam.index = 0) =
      true := by
  decide +kernel

/-- The sensor example at 1,530 and 1,532 ms. -/
def silent : State :=
  setting 26 [1] (driving.setCam { camReset with
    time := 1530000, moving := true, previousEdge := some 1021000, silenceRef := 1021000, qualification := .qualified,
    source := .sensor, index := 2 })

theorem test_silence :
    gives (exec .silenceWatchElapsed silent)
      (fun t => t.cam.qualification = .unqualified && t.cam.source = .virtual && t.cam.accumulator = 536608) = true ∧
      gives (exec .silenceWatchElapsed (silent.setCam { silent.cam with time := 1528000 }))
        (fun t => t.cam.qualification = .qualified && t.cam.time = 1528000) = true := by
  decide +kernel

/-- The mixer example of section 9.8: the three contributions, the sum and the two outputs. -/
theorem test_mixer :
    (12000 : Int) * 200 / 256 = 9375 ∧ (-3000 : Int) * 128 / 256 = -1500 ∧ (20000 : Int) * 255 / 256 = 19921 ∧
      mixOutput 27796 192 = 20847 ∧ mixOutput 27796 128 = 13898 ∧ mixOutput 40000 255 = 32767 := by
  decide

/-- An erased cue plays as −1 (R145); a sample that is not in time is an underrun (R163). -/
theorem test_output_sample :
    let playing := normal.setSnd { normal.snd with chuff := ⟨some 0, 3, false, 255, 0⟩ }
    let playing := playing.setTbs { playing.tbs with active :=
      { playing.tbs.active with cues := splice playing.tbs.active.cues 3 [0, 0, 10] } }
    gives (exec (.outputSample 63) playing) (fun t => t.snd.output = -1 && !t.snd.underrun && t.snd.chuff.position = 4) =
        true ∧
      gives (exec (.outputSample 0) playing) (fun t => t.snd.output = 0 && t.snd.underrun && t.snd.chuff.position = 4) =
        true := by
  decide +kernel

/-- The sample loading example of section 9.2. -/
def muted : State := normal.setSnd { normal.snd with on := false, mute := true }

theorem test_erase_requests :
    gives (exec .sampleErase (head 10 3 [0, 2] normal)) (fun t => repliesAre t [makeFrame 13 3 [10, 6, 0, 0]]) = true ∧
      gives (exec .sampleErase (head 10 3 [0, 2] muted))
        (fun t => t.snd.writeState = .erasing 2 && repliesAre t [makeFrame 13 3 [10, 0, 0, 2]]) = true := by
  decide +kernel

theorem test_write_requests :
    gives (exec .sampleWrite (head 11 3 [0, 0x20, 0, 0x5A] muted))
        (fun t => t.snd.writeState = .programming 8192 [0x5A] && repliesAre t [makeFrame 13 3 [11, 0, 0, 1]]) = true ∧
      gives (exec .sampleWrite (head 11 3 [0xFF, 0xFF, 0xFF, 1, 2] muted))
        (fun t => t.snd.writeState = .idle && repliesAre t [makeFrame 13 3 [11, 3, 0, 0]]) = true := by
  decide +kernel

theorem test_erase_completes :
    gives
      (exec .eraseComplete ((muted.setSnd { muted.snd with writeState := .erasing 2 }).setSamples [(8192, 0x5A), (12288, 1)]))
      (fun t => readCell t.samples 8192 = 0xFF && readCell t.samples 12288 = 1 && t.snd.writeState = .idle) = true := by
  decide +kernel

theorem test_program_completes :
    gives
      (exec .programComplete
        ((muted.setSnd { muted.snd with writeState := .programming 8192 [0xA5] }).setSamples [(8192, 0x5A)]))
      (fun t => readCell t.samples 8192 = 0x00 && readCell t.samples 8193 = 0xFF) = true := by
  decide +kernel

/-- The smoke warm-up example of section 10.4: the results 2,480 and 2,520, and the chuff at load 150. -/
def heating : State :=
  normal.setSmk { normal.smk with
    enable := true, state := .heating, fan := 40, requestTimer := some 100000, fresh := true, ageTimer := some 500000,
    temperature := some 900, heater := 230 }

theorem test_smoke_results :
    gives (exec (.conversionComplete 2480) (converting ⟨.smokeT, .queue, .smk, false⟩ heating))
        (fun t => t.smk.state = .heating && t.smk.heater = 120) = true ∧
      gives (exec (.conversionComplete 2520) (converting ⟨.smokeT, .queue, .smk, false⟩ heating))
        (fun t => t.smk.state = .ready && t.smk.heater = 80 && t.fnu.conditions.smokeReady) = true := by
  decide +kernel

theorem test_smoke_puff :
    (smokeChuff ((heating.setSmk { heating.smk with state := .ready }).setTrc { heating.trc with load := 150 })).smk.fan =
      237 := by
  decide +kernel

theorem test_smoke_request :
    gives (exec .smokeRequestTimerExpiry heating) (fun t => t.msq.converting = some ⟨.smokeT, .queue, .smk, false⟩) =
      true := by
  decide +kernel

theorem test_smoke_age :
    gives (exec .ageTimerExpiry heating) (fun t => t.smk.heater = 0 && !t.smk.fresh && t.smk.state = .heating) = true := by
  decide +kernel

theorem test_puff_ends :
    gives (exec .puffTimerExpiry (heating.setSmk { heating.smk with state := .ready, fan := 237, puffTimer := some 80000 }))
      (fun t => t.smk.fan = 40 && t.smk.puffTimer = none) = true := by
  decide +kernel

/-- The flicker example of section 10.5. -/
theorem test_flicker :
    flickerNext 0xACE1 = 0x5670 ∧ flickerNext 0x5670 = 0xAB38 ∧ flickerNext 0xAB38 = 0x559C ∧
      gives (exec .flickerAdvance (setLamp normal 2 { lampReset with on := true, effect := .flicker, shown := 32 }))
        (fun t => (lampAt t.lmp 2).shown = 47 && t.lmp.flicker = 0x5670) = true := by
  decide +kernel

theorem test_blink :
    gives
      (exec (.blinkTimerExpiry 7)
        (setLamp normal 7 { lampReset with on := true, effect := .blink, lit := true, shown := 63, blinkTimer := some 500000 }))
      (fun t => (lampAt t.lmp 7).shown = 0 && !(lampAt t.lmp 7).lit && (lampAt t.lmp 7).blinkTimer = some 500000) = true := by
  decide +kernel

/-- The soft lamp example of section 10.5 at 410 ms and at 490 ms. -/
theorem test_soft :
    let fading (level : Nat) := setLamp normal 3
      { lampReset with on := true, effect := .soft, dim := true, soft := level, shown := level, softTimer := some 10000 }
    gives (exec (.softTimerExpiry 3) (fading 40)) (fun t => (lampAt t.lmp 3).shown = 39) = true ∧
      gives (exec (.softTimerExpiry 3) (fading 32))
        (fun t => (lampAt t.lmp 3).shown = 31 && (lampAt t.lmp 3).softTimer = none) = true := by
  decide +kernel

/-! ### Power and resets (the dropout example of section 11.6) -/

/-- At the level of BATT_MIN 60, code 960, and one below it. -/
theorem test_presence_gained :
    gives (exec (.presenceGained ⟨.battery, 960⟩) normal)
        (fun t => t.ppm.battery.qualification = .qualifying && t.ppm.battery.timer = some 20000) = true ∧
      gives (exec (.presenceGained ⟨.battery, 959⟩) normal) (fun t => t = normal) = true := by
  decide +kernel

theorem test_presence_lost :
    gives (exec (.presenceLost ⟨.track, 1279⟩) driving)
      (fun t => t.ppm.active = .buffer && t.ppm.power = .coast && t.ppm.dcap = 700 && t.ppm.hmax = 0 &&
        t.ppm.soundCap = 96 && t.ppm.track.fastReturn && t.ppm.coastTimer = some 3000000) = true := by
  decide +kernel

/-- SETTINGS open with another TRACK_MIN in the edit buffer. -/
def retuning (trackMin : Byte) (s : State) : State :=
  s.setTbs { s.tbs with openTable := some .settings, edit := splice s.tbs.edit 0 (splice defaultSettings 47 [trackMin]) }

/-- A commit that moves the level across the voltage, 2,000: at 125 the level is 2,000, at 126 it is 2,016. -/
theorem test_settings_move_the_level :
    gives (exec .cfgCommit (head 8 3 [] (retuning 125 driving))) (fun t => t.ppm = driving.ppm) = true ∧
      gives (exec .cfgCommit (head 8 3 [] (retuning 126 driving)))
        (fun t => !t.ppm.track.present && t.ppm.track.qualification = .absent && t.ppm.power = .coast &&
          t.ppm.dcap = 700) = true := by
  decide +kernel

theorem test_first_source :
    gives
      (exec (.qualificationTimerExpiry .track)
        (State.reset.setPpm { State.reset.ppm with
          track := { voltage := 2000, present := true, qualification := .qualifying, timer := some 50000, fastReturn := false } }))
      (fun t => t.ppm.power = .normal && t.ppm.dcap = 1023 && t.ppm.hmax = 230 && t.ppm.soundCap = 255 && t.snd.on &&
        t.trc.state = .idle && !t.trc.armed) = true := by
  decide +kernel

/-- The part coasting on its buffer. -/
def coasting : State :=
  driving.setPpm { driving.ppm with
    power := .coast, active := .buffer, coastTimer := some 3000000, bufferTimer := some 5000
    track := noSupply }

theorem test_coast_ends :
    gives (exec .coastTimerExpiry coasting)
      (fun t => t.ppm.power = .hold && t.trc.state = .suspended && t.trc.ramp = 0 && t.trc.armed && t.trc.step = 100 &&
        t.mbr.bridge = .off && t.ppm.dcap = 0) = true := by
  decide +kernel

theorem test_buffer_request :
    gives (exec .bufferRequestTimerExpiry coasting) (fun t => t.msq.converting = some ⟨.bufferV, .queue, .ppm, false⟩) =
      true := by
  decide +kernel

theorem test_over_timer :
    gives (exec .overTimerExpiry (normal.setPpm { normal.ppm with overTimer := some 100000, shed := 1 }))
      (fun t => t.ppm.shed = 2 && t.ppm.dcap = 767 && t.ppm.hmax = 0) = true := by
  decide +kernel

theorem test_under_timer :
    gives (exec .underTimerExpiry (normal.setPpm { normal.ppm with underTimer := some 1000000, shed := 2, hot := true }))
        (fun t => t.ppm.shed = 2) = true ∧
      gives (exec .underTimerExpiry (normal.setPpm { normal.ppm with underTimer := some 1000000, shed := 3, hot := true }))
        (fun t => t.ppm.shed = 2) = true := by
  decide +kernel

theorem test_reset_normal :
    gives (exec .resetNormal (head 12 3 [0, 3, 0] driving))
        (fun t => t.ppm.phase = .held .command && t.mbr = mbrReset && t.cli = cliReset) = true ∧
      gives (exec .resetNormal (head 12 3 [0, 4, 0] driving)) (fun t => repliesAre t [makeFrame 13 3 [12, 7, 0, 0]]) =
        true := by
  decide +kernel

theorem test_reset_factory :
    gives (exec .resetFactory (head 12 3 [0, 3, 1] driving)) (fun t => t.ppm.phase = .restoring) = true := by
  decide +kernel

theorem test_restore_completes :
    gives (exec .factoryRestoreComplete (normal.setPpm { normal.ppm with phase := .restoring }))
      (fun t => t.ppm.phase = .held .factory && t.store = defaultStore) = true := by
  decide +kernel

theorem test_power_on :
    gives (exec (.powerOnReset 0) driving) (fun t => t.trc = trcReset && t.ppm.phase = .held .powerOn) = true := by
  decide +kernel

theorem test_brownout_in_a_restore :
    gives
      (exec (.brownoutReset 2)
        ((normal.setPpm { normal.ppm with phase := .restoring }).setStore
          { defaultStore with lamps := goodImage (List.replicate 32 1) }))
      (fun t => t.store.speed.mark && !t.store.address.mark && t.store.lamps = goodImage (List.replicate 32 1) &&
        t.ppm.phase = .held .brownout) = true := by
  decide +kernel

theorem test_release :
    gives
      (exec .resetRelease
        ((driving.setPpm { driving.ppm with phase := .held .command }).setStore
          { defaultStore with map := { defaultStore.map with mark := true } }))
      (fun t => t.ppm.cause = .command && t.tbs.defaulted && t.trc.state = .suspended &&
        t.ppm.track.qualification = .qualifying && t.ppm.battery.qualification = .absent && t.msq.scanTimer = some 10000) = true := by
  decide +kernel
/-! ### Witnesses: states and operands that meet each statement's hypotheses -/

/-- The state that a next state is. -/
def after (o : Host.Outcome State Fault Refusal) : State :=
  match o with
  | .next t => t
  | .fault _ => State.reset
  | .refused _ => State.reset

/-- The part with a frame for the PRIMARY address at the head, handed on through entry 0. -/
abbrev forPrimary (s : State) (kind : Nat) (payload : List Byte) : Prop :=
  HandedOn (head kind 3 payload s) (makeFrame kind 3 payload) [] (.entry 0) ∧
    frameKind (makeFrame kind 3 payload) = kind ∧ framePayload (makeFrame kind 3 payload) = payload

/-- The part with another traction state, drive direction and ramp value. -/
def moving (t : Traction) (ramp : Nat) (d : Dir) (armed : Bool) : State :=
  driving.setTrc { driving.trc with
    state := t, ramp := ramp, drive := d, armed := armed
    step := if armed then 100 else 0, target := if armed then 385 else 0 }

/-- The part with the frame taken and the owner heard, as the statements on DRIVE and HALT name it. -/
def heard (kind : Nat) (payload : List Byte) (s : State) : State :=
  ownerHeard (frameTaken (head kind 3 payload s) (makeFrame kind 3 payload) [])

/-- A frame being collected. -/
def collecting (b : List Byte) (total : Option Nat) : State :=
  normal.setCli { normal.cli with assembler := some ⟨b, total⟩, interByte := some 5000 }

/-- The part in a phase of a reset. -/
def inReset (k : Phase) : State := normal.setPpm { normal.ppm with phase := k }

theorem witness_StepTakesTheFrontCommand :
    (normal.setPending [.camTick, .rampTick]).pending = [.camTick, .rampTick] ∧ normal.pending = [] ∧
      normal.fnu.waiting = [] := ⟨rfl, rfl, rfl⟩

theorem witness_PartInResetIsLeftAsItIs :
    running (inReset (.held .command)) = false ∧ running (inReset .restoring) = false ∧
      16 * (inReset .restoring).trackMin = 1280 ∧ 16 * (inReset .restoring).battMin = 960 := by
  decide +kernel

/-- Byte 2 at 16 and at 17, and a check byte that is right and one that is not, with room in the queue and with none. -/
theorem witness_CharacterFollowsTheTable :
    (∀ s ∈ [normal, collecting [1] none, collecting [1, 2] none, collecting [1, 0x23, 0] (some 4)], running s = true) ∧
      normal.cli.assembler = none ∧ ¬16 < (16 : Byte).toNat ∧ 16 < (17 : Byte).toNat ∧
      some 4 = some ([1, 0x23, 0] ++ [(0xDC : Byte)]).length ∧ sumBytes ([1, 0x23, 0] ++ [0xDC]) % 256 = 0 ∧
      sumBytes ([1, 0x23, 0] ++ [0xDD]) % 256 ≠ 0 ∧ (List.replicate 7 ([] : Frame)).length < 8 ∧
      ¬(List.replicate 8 ([] : Frame)).length < 8 := by
  decide +kernel

theorem witness_PartialFrameIsDiscarded :
    running (collecting [1] none) = true ∧ (collecting [1] none).cli.assembler ≠ none ∧
      (collecting [1] none).cli.interByte ≠ none ∧ running normal = true ∧ normal.cli.assembler = none := by
  decide +kernel

theorem witness_SendersAndTheirQueues :
    running (normal.setCli { normal.cli with replies := [[1]], replySending := true }) = true ∧
      ({ cliReset with relays := [[1], [2], [3]] } : Cli).relays.length < 4 ∧
      ({ cliReset with relays := [[1], [2], [3], [4]] } : Cli).relays = [[1], [2], [3], [4]] := by
  decide +kernel

/-- With 7 frames waiting, and at both ends of the ranges of Kind, Address and payload. -/
theorem witness_FrameSentWholeIsReceived :
    running (normal.setCli { normal.cli with inbound := List.replicate 7 [] }) = true ∧
      goodFrame (makeFrame 0 291 [0, 100]) ∧ goodFrame (makeFrame 15 4095 (List.replicate 16 255)) ∧
      (List.replicate 7 ([] : Frame)).length < 8 ∧ 15 < 16 ∧ 4095 < 4096 ∧
      (List.replicate 16 (255 : Byte)).length ≤ 16 := by
  decide +kernel

/-- A reply kind, a matching RELAY entry and none, and the take that leaves three frames. -/
theorem witness_DiscardedFrameIsOnlyRelayed :
    let f := makeFrame 13 288 [0, 0, 0, 0]
    let g := makeFrame 3 40 []
    frameRow .replyFrameTaken = some isReplyFrame ∧ HeadFrame (head 13 288 [0, 0, 0, 0] accepting) f [] ∧
      isReplyFrame f = true ∧ 13 ≤ frameKind f ∧ handedVia accepting f = none ∧ accepting.fnu.waiting = [] ∧
      relayWanted accepting f ∧ frameRow .statusReq = some (isKind 3) ∧
      HeadFrame (head 3 40 [] accepting) g [] ∧ isKind 3 g = true ∧ handedVia accepting g = none ∧
      ¬relayWanted normal f ∧ HeadFrame (normal.setCli { normal.cli with inbound := [f, f, f, f] }) f [f, f, f] := by
  refine ⟨rfl, by decide +kernel, by decide +kernel, by decide +kernel, by decide +kernel, rfl,
    ⟨3, by decide, by decide +kernel, by decide +kernel, fun n _ => by
      rw [show frameAddress (makeFrame 13 288 [0, 0, 0, 0]) = (accepting.entry 3).address by decide +kernel]⟩,
    rfl, by decide +kernel, by decide +kernel, by decide +kernel, ?_, by decide +kernel⟩
  rintro ⟨k, hk, hv, hr, -⟩
  have h : ∀ k < 8, ¬((normal.entry k).valid = true ∧ (normal.entry k).kind = .relay) := by decide +kernel
  exact h k hk ⟨hv, hr⟩

/-- Both ends of the lengths and payload limits of Table 1-1. -/
theorem test_well_formed_frames :
    (∀ f ∈ [makeFrame 0 1 [1, 255], makeFrame 1 1 [1], makeFrame 2 1 [7, 255], makeFrame 5 1 [0],
        makeFrame 5 1 (List.replicate 16 0), makeFrame 7 1 [0, 0, 0, 1], makeFrame 7 1 [0, 0, 0, 13],
        makeFrame 11 1 [0, 0, 0, 0], makeFrame 11 1 (List.replicate 16 0), makeFrame 12 1 [0, 1, 1]],
      frameWellFormed f = true) ∧
      ∀ f ∈ [makeFrame 0 1 [2, 0], makeFrame 0 1 [0], makeFrame 1 1 [2], makeFrame 2 1 [8, 0], makeFrame 3 1 [0],
        makeFrame 5 1 [], makeFrame 7 1 [0, 0, 0, 0], makeFrame 7 1 [0, 0, 0, 14], makeFrame 11 1 [0, 0, 0],
        makeFrame 12 1 [0, 1, 2], makeFrame 13 1 [0, 0, 0, 0]], frameWellFormed f = false := by
  decide +kernel

/-- Kind 12 and Kind 13, a malformed frame, the broadcasts, and each kind of entry. -/
theorem witness_FramesAreHandedOnByTheFirstMatch :
    13 ≤ frameKind (makeFrame 13 291 [0, 0, 0, 0]) ∧ frameWellFormed (makeFrame 0 291 [2, 0]) = false ∧
      frameKind (makeFrame 12 291 [0, 3, 0]) ≤ 12 ∧ frameWellFormed (makeFrame 12 291 [0, 3, 0]) = true ∧
      frameAddress (makeFrame 12 291 [0, 3, 0]) ≠ 0 ∧ frameWellFormed (makeFrame 0 0 [0, 0]) = true ∧
      frameAddress (makeFrame 0 0 [0, 0]) = 0 ∧ handedVia accepting (makeFrame 0 0 [0, 0]) = some .broadcast ∧
      handedVia accepting (makeFrame 0 0 [0, 1]) = none ∧ handedVia accepting (makeFrame 1 0 [1]) = some .broadcast ∧
      handedVia accepting (makeFrame 12 291 [0, 3, 0]) = some (.entry 0) ∧
      handedVia accepting (makeFrame 2 40 [0, 1]) = some (.entry 1) ∧ handedVia accepting (makeFrame 3 40 []) = none ∧
      handedVia accepting (makeFrame 2 600 [0, 1]) = some (.entry 2) ∧
      handedVia accepting (makeFrame 0 600 [0, 1]) = none := by
  decide +kernel

theorem witness_OwnersFramesAreHeardOthersDoNotDrive :
    HandedOn (head 0 40 [0, 100] accepting) (makeFrame 0 40 [0, 100]) [] (.entry 1) ∧
      ownerEntry (head 0 40 [0, 100] accepting) = 1 ∧ isKind 0 (makeFrame 0 40 [0, 100]) = true ∧
      HandedOn (head 1 0 [1] accepting) (makeFrame 1 0 [1]) [] .broadcast ∧
      isKindBut 1 0 0 (makeFrame 1 0 [1]) = true ∧
      HandedOn (head 1 600 [1] accepting) (makeFrame 1 600 [1]) [] (.entry 2) ∧
      HandedOn (head 0 291 [0, 50] accepting) (makeFrame 0 291 [0, 50]) [] (.entry 0) ∧
      ownerEntry (head 0 291 [0, 50] accepting) ≠ 0 ∧ frameKind (makeFrame 0 291 [0, 50]) = 0 ∧
      HandedOn (head 1 291 [0] accepting) (makeFrame 1 291 [0]) [] (.entry 0) ∧
      frameKind (makeFrame 1 291 [0]) = 1 ∧ byteAt (framePayload (makeFrame 1 291 [0])) 0 = 0 := by
  decide +kernel

theorem witness_OnlyTheirCommandsReachTheTimerAndTheFunctions :
    (∃ t, exec .drive (head 0 3 [0, 1] normal) = .next t ∧ t.dsp ≠ (head 0 3 [0, 1] normal).dsp) ∧
      ∃ t, exec .func (head 2 3 [0, 1] normal) = .next t ∧ t.fnu.functions ≠ (head 2 3 [0, 1] normal).fnu.functions :=
  ⟨⟨_, rfl, by decide +kernel⟩, ⟨_, rfl, by decide +kernel⟩⟩

/-- The steps 0, 240 and 255, in IDLE, RUNNING, REVERSING and TRIPPED, at V 0 and under way. -/
theorem witness_DriveWhileArmed :
    ∀ s ∈ [moving .idle 0 .fwd true, moving .running 0 .fwd true, moving .running 24640 .fwd true,
      moving .reversing 24640 .rev true, moving .tripped 24640 .fwd true], ∀ p ∈ [[0, 0], [1, 240], [0, 255]],
      forPrimary s 0 p ∧ fromOwner s (.entry 0) = true ∧ s.trc.armed = true ∧
        (heard 0 p s).trc.state = s.trc.state := by
  decide +kernel

theorem witness_DriveWhileDisarmed :
    ∀ s ∈ [moving .idle 0 .fwd false, moving .emergency 0 .fwd false, moving .lockout 0 .fwd false,
      moving .stalled 0 .fwd false, moving .failsafe 24640 .fwd false, moving .failsafe 24640 .rev false,
      moving .tripped 24640 .fwd false, moving .suspended 0 .fwd false], ∀ p ∈ [[0, 0], [1, 0], [0, 1], [1, 255]],
      forPrimary s 0 p ∧ fromOwner s (.entry 0) = true ∧ s.trc.armed = false ∧
        (heard 0 p s).trc.state = s.trc.state ∧ (heard 0 p s).trc.ramp = s.trc.ramp := by
  decide +kernel

theorem witness_HaltNormalIsStepZero :
    ∀ s ∈ [moving .idle 0 .fwd true, moving .running 0 .fwd true, moving .running 1 .fwd true,
      moving .reversing 24640 .rev true, moving .emergency 0 .fwd false, moving .lockout 0 .fwd false,
      moving .stalled 0 .fwd false, moving .failsafe 24640 .fwd false, moving .failsafe 24640 .rev false,
      moving .tripped 24640 .fwd true, moving .suspended 0 .fwd false],
      forPrimary s 1 [0] ∧ fromOwner s (.entry 0) = true ∧ (heard 1 [0] s).trc = s.trc ∧
        (s.trc.state = .reversing → s.trc.stated ≠ s.trc.drive) := by
  decide +kernel

/-- From the owner and from a group, in every traction state. -/
theorem witness_EmergencyHalt :
    (∀ s ∈ [moving .idle 0 .fwd true, moving .running 24640 .fwd true, moving .reversing 24640 .rev true,
      moving .failsafe 24640 .fwd false, moving .tripped 24640 .fwd true, moving .emergency 0 .fwd false,
      moving .lockout 0 .fwd false, moving .stalled 0 .fwd false, moving .suspended 0 .fwd true],
      forPrimary s 1 [1] ∧ (heard 1 [1] s).trc.state = s.trc.state ∧ (heard 1 [1] s).mbr.mode ≠ .emergencyStop ∧
        (heard 1 [1] s).mbr.bridge ≠ .brake) ∧
      HandedOn (head 1 600 [1] { driving with tbs := accepting.tbs }) (makeFrame 1 600 [1]) [] (.entry 2) ∧
      fromOwner { driving with tbs := accepting.tbs } (.entry 2) = false := by
  decide +kernel

/-- With LOSS_ACTION at STOP and at CONTINUE, in every traction state. -/
theorem witness_CommandLossExpires :
    ∀ s ∈ [moving .idle 0 .fwd true, moving .running 24640 .fwd true, moving .running 1 .fwd true,
      moving .running 0 .fwd true, moving .reversing 24640 .rev true,
      moving .failsafe 24640 .fwd false, moving .tripped 24640 .fwd true, moving .emergency 0 .fwd false,
      moving .lockout 0 .fwd false, moving .stalled 0 .fwd false, moving .suspended 0 .fwd true],
      let s := s.setDsp { lossTimer := some 2000000, signalLost := false }
      running s = true ∧ s.dsp.lossTimer ≠ none ∧ s.lossStops = true ∧ (setting 23 [1] s).lossStops = false := by
  decide +kernel

/-- With three replies waiting and with four. -/
theorem witness_StatusIsAnswered :
    ∀ n ∈ [3, 4], let s := normal.setCli { normal.cli with replies := List.replicate n [] }
      forPrimary s 3 [] ∧ (frameTaken (head 3 3 [] s) (makeFrame 3 3 []) []).cli.replies.length = n := by
  decide +kernel

theorem witness_StatusRecordLayout :
    let s := (driving.setPpm { driving.ppm with shed := 3 }).setTrc
      { driving.trc with step := 240, ramp := 65472, speed := 1023, load := 255 }
    let s := ((s.setMbr { s.mbr with applied := 1023 }).setCli { s.cli with checkErrors := 255 }).setMsq
      { s.msq with results := List.replicate 8 4095 }
    s.ppm.shed ≤ 3 ∧ s.trc.step ≤ 240 ∧ s.trc.ramp ≤ 65472 ∧ s.mbr.applied ≤ 1023 ∧ s.trc.speed ≤ 1023 ∧
      s.trc.load ≤ 255 ∧ s.cli.checkErrors ≤ 255 ∧ (∀ c ∈ s.msq.results, c ≤ 4095) := by
  decide +kernel

/-- The table ids 5, 6 and 7, and the indices 33 and 34 of the SPEED table's 34 bytes. -/
theorem witness_OpenPointAndCloseFollowTheirTests :
    (∀ id ∈ [5, 6, 7], forPrimary normal 4 [id]) ∧ tableOfId 5 = some .lamps ∧ normal.tbs.writing = none ∧
      forPrimary (normal.setTbs { normal.tbs with writing := some .speed }) 4 [0] ∧
      (∀ t ∈ tableIds, (tableGet normal.tbs.active t).length = tableSize t) ∧
      (∀ i ∈ [33, 34], forPrimary editing 6 [0, i]) ∧ editing.tbs.openTable = some .speed ∧
      33 < tableSize .speed ∧ tableSize .speed ≤ 34 ∧ forPrimary normal 6 [0, 0] ∧ normal.tbs.openTable = none ∧
      forPrimary editing 9 [] ∧ forPrimary normal 9 [] := by
  refine ⟨?_, ?_, ?_, ?_, ?_, ?_, ?_, ?_, ?_, ?_, ?_, ?_, ?_⟩ <;> decide +kernel

/-- A write that ends at the table's last byte and one past it, and reads that do. -/
theorem witness_WriteAndReadFollowTheirTests :
    (∀ p ∈ [32, 33], let s := editing.setTbs { editing.tbs with pointer := p }
      forPrimary s 5 [1, 2] ∧ s.tbs.edit.length = 1024) ∧
      32 + 2 ≤ tableSize .speed ∧ tableSize .speed < 33 + 2 ∧ forPrimary normal 5 [1, 2] ∧
      normal.tbs.openTable = none ∧ (∀ i ∈ [2, 3], forPrimary normal 7 [6, 0, i, 2]) ∧
      forPrimary normal 7 [7, 0, 0, 1] ∧ (∀ i ∈ [32, 33], forPrimary editing 7 [2, 0, i, 2]) ∧
      forPrimary normal 7 [2, 0, 32, 2] ∧ tableOfId 2 = some .speed := by
  refine ⟨?_, ?_, ?_, ?_, ?_, ?_, ?_, ?_, ?_, ?_⟩ <;> decide +kernel

theorem witness_CommitFollowsItsTests :
    forPrimary (normal.setTbs { normal.tbs with writing := some .speed }) 8 [] ∧ forPrimary normal 8 [] ∧
      forPrimary editing 8 [] ∧ editing.tbs.writing = none ∧ editing.tbs.openTable = some .speed ∧
      commitOffence .speed (editing.tbs.edit.take 34) = none ∧
      commitOffence .speed ((splice editing.tbs.edit 12 [0x01, 0x60, 0x01, 0x2C]).take 34) = some 7 := by
  decide +kernel

/-- A table open with its defaults in the edit buffer. -/
def reopened (t : TableId) (s : State) : State :=
  s.setTbs { s.tbs with openTable := some t, edit := splice s.tbs.edit 0 (defaultTable t) }

/-- Every table that can be installed: the engine ON and OFF, the lamps lit and dark, and a settings level below, at and
above the voltage. -/
theorem witness_CommitFollowsItsTests_installs :
    (∀ t ∈ tableIds, let s := reopened t normal
      forPrimary s 8 [] ∧ s.tbs.writing = none ∧ s.tbs.openTable = some t ∧
        commitOffence t (s.tbs.edit.take (tableSize t)) = none) ∧
      MapSafe (evaluate (reopened .map normal)) ∧ (reopened .cues normal).snd.on = true ∧
      (reopened .cues State.reset).snd.on = false ∧ (reopened .lamps normal).lmp.outputs.length = 8 ∧
      (reopened .lamps normal).lmp.power = .normal ∧ (reopened .lamps State.reset).lmp.power = .init ∧
      (∀ m ∈ [124, 125, 126], (supplyOf (retuning m driving).ppm .track).present = true ∧
        (decide (16 * byteAt ((retuning m driving).tbs.edit.take 64) 47 ≤ 2000) = decide (m ≠ 126))) := by
  refine ⟨?_, ?_, ?_, ?_, ?_, ?_, ?_, ?_⟩ <;> decide +kernel

/-- The installation of an address table over the one in force. -/
def installing (old new : List Byte) : State :=
  driving.setTbs { driving.tbs with
    active := { driving.tbs.active with address := old }, openTable := some .address,
    edit := splice driving.tbs.edit 0 new }

/-- Another owner, the same owner, and the same consist entry turned round. -/
theorem witness_AddressTableInstalls :
    (∀ p ∈ [(defaultAddress, acceptTable), (defaultAddress, defaultAddress),
        (acceptTable, splice acceptTable 6 [0xA0])],
      let s := installing p.1 p.2
      HandedOn (head 8 (s.primaryAddress) [] s) (makeFrame 8 s.primaryAddress []) [] (.entry 0) ∧
        frameKind (makeFrame 8 s.primaryAddress []) = 8 ∧
        s.tbs.writing = none ∧ s.tbs.openTable = some .address ∧
        commitOffence .address (s.tbs.edit.take 48) = none) ∧
      isConsist (addressEntry defaultAddress 0) = false ∧ isConsist (addressEntry acceptTable 1) = true ∧
      (let s := installing acceptTable (splice acceptTable 6 [0xA0])
       ownerEntry s = 1 ∧ (s.entry 1).reversed = true ∧
        (addressEntry (s.tbs.edit.take 48) 1).reversed = false ∧
        (addressEntry (s.tbs.edit.take 48) 1).address = (s.entry 1).address ∧ s.trc.step ≤ 240 ∧
        s.trc.armed = true ∧ s.trc.state = .running ∧ 0 < s.trc.ramp ∧ s.trc.stated = s.trc.drive) := by
  decide +kernel

theorem witness_SettingsArePutRight :
    defaultSettings.length = 64 ∧ settingsValid defaultSettings = true ∧
      (List.replicate 64 (255 : Byte)).length = 64 ∧ settingsValid (List.replicate 64 255) = false := by
  decide +kernel

theorem witness_NonvolatileWriteCompletes :
    let s := normal.setTbs { normal.tbs with writing := some .lamps }
    running s = true ∧ s.tbs.writing = some .lamps ∧ contentValid .lamps (tableGet s.tbs.active .lamps) = true := by
  decide +kernel

theorem witness_FuncSetsTheWindow :
    HandedOn (head 2 600 [0, 255] accepting) (makeFrame 2 600 [0, 255]) [] (.entry 2) ∧
      HandedOn (head 2 291 [7, 255] accepting) (makeFrame 2 291 [7, 255]) [] (.entry 0) ∧
      frameKind (makeFrame 2 600 [0, 255]) = 2 := by
  decide +kernel

/-- A map entry with the action LAMP on an output. -/
def lampEntry (n : Nat) : MapEntry := { mapEntry [] 0 with action := some (.lamp n ⟨.soft, true⟩) }

/-- Publications that wait, and a list in which the second LAMP entry asks for output 7. -/
theorem witness_FnuTakesPublicationsAndWorksOutItsOutputs :
    (publish normal (.coasting true)).fnu.waiting = [.coasting true] ∧ normal.fnu.waiting = [] ∧
      (let s := evaluate driving
       let s := s.setFnu { s.fnu with functions := 3 }
       s.fnu.activity.length = (mapEntries s.tbs.active.map).length ∧
        s.fnu.delivered = outputsFor ((((mapEntries s.tbs.active.map).zip s.fnu.activity).filter (fun x => x.2)).map
          (fun x => x.1)) ∧
        (mapEntries s.tbs.active.map).map (entryActive s.fnu) ≠ s.fnu.activity) ∧
      [lampEntry 3, lampEntry 7] = [lampEntry 3] ++ lampEntry 7 :: [] ∧
      ((tractionShunt driving true).trc.state = driving.trc.state ∧
        (let s := moving .running 0 .fwd true
         let s := s.setTrc { s.trc with step := 0 }
         (tractionShunt s true).trc.state ≠ s.trc.state)) ∧
      (lampEntry 7).action = some (.lamp 7 ⟨.soft, true⟩) ∧ ∀ x ∈ [lampEntry 3], ∀ d, x.action ≠ some (.lamp 7 d) := by
  refine ⟨rfl, rfl, by decide +kernel, rfl, by decide +kernel, rfl, fun x hx d h => ?_⟩
  rw [List.mem_singleton] at hx
  subst hx
  cases h

theorem witness_TargetFollowsTheSpeedTable : speedOffence defaultSpeed = none ∧ speedOffence committedSpeed = none := by
  decide +kernel

/-- V 0, 1, 63, 64 and 24,640, in every traction state, with regulation on and off. -/
theorem witness_RampTickMovesTheRamp :
    (∀ t ∈ [Traction.idle, .running, .reversing, .failsafe, .tripped, .emergency, .lockout, .stalled, .suspended],
      ∀ v ∈ [0, 1, 63, 64, 24640], running (moving t v .fwd true) = true) ∧ driving.regOn = true ∧
      (setting 3 [0] driving).regOn = false ∧ running (setting 3 [0] driving) = true := by
  decide +kernel

theorem witness_TractionTimersExpire :
    running driving = true ∧ driving.trc.bemfTimer ≠ none ∧ driving.trc.outstanding = false ∧
      driving.mbr.bridge = .drive ∧ driving.mbr.gap = .noGap ∧ driving.trc.stallTimer = none ∧
      running (driving.setTrc { driving.trc with outstanding := true }) = true ∧
      (∀ b ∈ [Bridge.off, .brake, .tripped], running (driving.setMbr { driving.mbr with bridge := b }) = true) ∧
      (∀ s ∈ [moving .running 24640 .fwd true, moving .reversing 24640 .rev true],
        running (s.setTrc { s.trc with stallTimer := some 1 }) = true ∧
          (s.trc.state = .running ∨ s.trc.state = .reversing) ∧ s.mbr.mode = .drive) ∧
      (let s := driving.setTrc { driving.trc with stallTimer := some 1 }
       DemandSafe s ∧ BridgeSafe s) ∧ normal.trc.bemfTimer = none ∧
      (let u := tractionCap (driving.setTrc { driving.trc with duty := driving.stallDuty, speed := driving.stallSpeed }) 1023
       u.trc.stallTimer = some (100000 * driving.stallTime)) := by
  decide +kernel

/-- With Vint 0, 1 and 385, and with regulation off. -/
theorem witness_BackEmfResultIsTaken :
    (∀ v ∈ [63, 64, 24640], let s := converting ⟨.bemf, .gap, .trc, false⟩ (moving .running v .fwd true)
      running s = true ∧ s.msq.converting = some ⟨.bemf, .gap, .trc, false⟩ ∧ s.regOn = true) ∧
      (let s := converting ⟨.bemf, .gap, .trc, false⟩ (moving .failsafe 24640 .fwd false)
       running s = true ∧ s.msq.converting = some ⟨.bemf, .gap, .trc, false⟩ ∧ s.trc.state ≠ .running ∧
        s.trc.state ≠ .reversing) := by
  decide +kernel

theorem witness_RampRisesWhenArmedAndTurnsAtRest :
    (let s := setting 0 [40] (driving.setTrc { driving.trc with ramp := 40 })
     ∃ t, exec .rampTick s = .next t ∧ s.trc.ramp < t.trc.ramp ∧ LatchSafe s) ∧
      (let s := head 1 3 [0] (moving .idle 0 .fwd false)
       ∃ t, exec .haltNormal s = .next t ∧ s.trc.armed = false ∧ t.trc.armed = true) ∧
      (let s := driving.setTrc { driving.trc with state := .reversing, ramp := 16, target := 4, step := 1, stated := .rev }
       ∃ t, exec .rampTick s = .next t ∧ DemandSafe s ∧ t.trc.drive ≠ s.trc.drive ∧ t.mbr.drive ≠ s.mbr.drive) :=
  ⟨⟨_, rfl, by decide +kernel, by decide +kernel⟩, ⟨_, rfl, by decide +kernel, by decide +kernel⟩,
    ⟨_, rfl, by decide +kernel, by decide +kernel, by decide +kernel⟩⟩

/-- A high side is closed before the end of the on-time, and open at it and once an at-once demand has opened it. -/
theorem witness_BridgeNeverShorts :
    (driving.mbr.bridge = .drive ∧ driving.mbr.drive = .fwd) ∧
      closedSwitches driving.mbr 24437 = [.highA, .lowB] ∧ closedSwitches driving.mbr 24438 = [] ∧
      closedSwitches { driving.mbr with drive := .rev } 0 = [.highB, .lowA] ∧
      closedSwitches { driving.mbr with period := some ⟨1, 50000, 300, 1, true⟩ } 300 = [] ∧
      closedSwitches { driving.mbr with period := none } 0 = [] ∧
      closedSwitches { driving.mbr with bridge := .brake } 0 = [.lowA, .lowB] ∧
      (∀ b ∈ [Bridge.off, .gap, .tripped], closedSwitches { driving.mbr with bridge := b } 0 = []) ∧
      (∀ e ∈ [0, 49999], closedSwitches { driving.mbr with applied := 1023 } e = [.highA, .lowB] ∧
        closedSwitches { driving.mbr with applied := 0 } e = []) := by
  decide +kernel

/-- A bridge in a state, with a mode demanded. -/
def bridged (b : Bridge) (m : Mode) (g : GapPhase) : State := driving.setMbr { driving.mbr with bridge := b, mode := m, gap := g }

theorem witness_BridgeTakesDemands :
    (∀ b ∈ [Bridge.drive, .gap, .tripped], .off ≠ (bridged b .drive .noGap).mbr.mode ∧ b ≠ .off ∧ b ≠ .brake) ∧
      Bridge.brake = (bridged .brake .emergencyStop .noGap).mbr.bridge ∧
      (∀ b ∈ [Bridge.off, .brake], Mode.drive ≠ (bridged b .off .noGap).mbr.mode) ∧
      Mode.drive = (bridged .gap .drive .ready).mbr.mode ∧ Dir.rev ≠ (bridged .gap .drive .ready).mbr.drive ∧
      Dir.fwd = (bridged .drive .drive .noGap).mbr.drive ∧
      (bridged .drive .drive .noGap).mbr.period = some ⟨1, 50000, 0, 0, false⟩ ∧ 0 < 50000 := by
  decide +kernel

theorem witness_BridgeTimersExpire :
    (∀ s ∈ [bridged .off .off .noGap, bridged .drive .drive .pending, bridged .drive .drive .noGap], running s = true) ∧
      (∀ c ∈ [none, some (⟨.trackV, .scan, .scan, false⟩ : Conversion)],
        let s := ((bridged .gap .drive .settling).setMsq
          { driving.msq with gap := .offered, converting := c }).setMbr
            { (bridged .gap .drive .settling).mbr with settleTimer := some 300 }
        running s = true ∧ s.mbr.settleTimer ≠ none ∧ s.msq.gap = .offered ∧ s.msq.slot = .empty) ∧
      driving.mbr.settleTimer = none ∧ driving.mbr.tripFreeTimer ≠ none := by
  decide +kernel

/-- At the level and 1 mA above it, with the converter idle, scanning, serving the queue or a gap, and the slot full. -/
theorem witness_OvercurrentTrips :
    (running driving = true ∧ 6000 ≤ 50 * driving.mbr.tripLevel ∧ 50 * driving.mbr.tripLevel < 6001) ∧
      (∀ t ∈ [Traction.running, .reversing, .failsafe], running (moving t 24640 .fwd true) = true) ∧
      (driving.msq.slot = .empty ∧ driving.msq.converting = none) ∧
      (∀ c ∈ [(⟨.trackV, .scan, .scan, false⟩ : Conversion), ⟨.smokeT, .queue, .smk, false⟩, ⟨.bemf, .gap, .trc, false⟩],
        (converting c driving).msq.converting = some c ∧ (converting c driving).msq.slot = .empty) ∧
      (let s := driving.setMsq { driving.msq with slot := .waiting ⟨.trackV, .ppm, true⟩ }
       s.msq.slot ≠ .empty ∧ s.mbr.overloads + 1 < 4 ∧
         4 ≤ (s.setMbr { s.mbr with overloads := 3 }).mbr.overloads + 1) := by
  decide +kernel

/-- SHORT_LEVEL and one below it, the third and the fourth overload; and a retry armed, disarmed and at rest. -/
theorem witness_TripsAreJudgedAndRetried :
    (∀ n ∈ [2, 3], let s := converting ⟨.motorI, .inject, .mbr, false⟩ (bridged .tripped .drive .noGap)
      let s := s.setMbr { s.mbr with overloads := n }
      running s = true ∧ s.msq.converting = some ⟨.motorI, .inject, .mbr, false⟩ ∧ s.shortLevel ≤ 4095 ∧
        0 < s.shortLevel ∧ s.trc.state ≠ .suspended ∧ s.mbr.bridge = .tripped) ∧
      (∀ s ∈ [moving .tripped 24640 .fwd true, moving .tripped 24640 .rev true, moving .tripped 24640 .fwd false,
          moving .running 24640 .fwd true, (moving .tripped 0 .fwd true).setTrc
            { (moving .tripped 0 .fwd true).trc with target := 0 }],
        let s := s.setMbr { s.mbr with bridge := .tripped, retryTimer := some 100000 }
        running s = true ∧ s.mbr.bridge = .tripped ∧ s.mbr.retryTimer ≠ none ∧ s.mbr.mode = .drive) ∧
      ((moving .suspended 0 .fwd true).trc.state = .suspended) := by
  decide +kernel

theorem witness_ConversionWritesItsEntryAndTheArbiterActs :
    (running normal = true ∧ normal.msq.converting = none) ∧
      (∀ v ∈ [true, false], let s := converting ⟨.bemf, .gap, .trc, v⟩ driving
        running s = true ∧ s.msq.converting = some ⟨.bemf, .gap, .trc, v⟩ ∧ s.msq.results.length = 8) ∧
      (let s := converting ⟨.motorI, .scan, .scan, false⟩ normal
       running s = true ∧ s.msq.converting = some ⟨.motorI, .scan, .scan, false⟩ ∧ s.fnu.waiting = []) ∧
      (let q := { msqReset with slot := .waiting tripInject }
       q.converting = none ∧ q.slot = .waiting tripInject) ∧
      (let q := { msqReset with gap := .pending, queue := [⟨.smokeT, .smk⟩], pass := [.trackV] }
       q.converting = none ∧ q.slot = .empty ∧ q.gap = .pending ∧ q.queue = ⟨.smokeT, .smk⟩ :: [] ∧
        q.pass = .trackV :: []) := by
  decide +kernel

theorem witness_ScanTimerExpires :
    (running normal = true ∧ normal.msq.scanTimer ≠ none ∧ normal.msq.pass = []) ∧
      (let s := normal.setMsq { normal.msq with pass := [.boardT] }
       running s = true ∧ s.msq.scanTimer ≠ none ∧ s.msq.pass ≠ []) := by
  decide +kernel

theorem witness_CamTickMovesThePhase :
    (running normal = true ∧ normal.trc.ramp = 0) ∧
      (running silent = true ∧ 0 < silent.trc.ramp ∧ silent.cam.moving = true ∧ silent.cam.qualification = .qualified) ∧
      (running driving = true ∧ 0 < driving.trc.ramp ∧ driving.cam.moving = false) ∧
      (running beating = true ∧ 1048576 ≤ beating.cam.accumulator + 385 * beating.camScale) := by
  decide +kernel

/-- An edge at the debounce time and one before it. -/
theorem witness_CamEdgeIsCounted :
    (running normal = true ∧ normal.trc.ramp = 0) ∧ (running driving = true ∧ 0 < driving.trc.ramp) ∧
      (∀ offset ∈ [0, 2000], let s := beating.setCam { beating.cam with
          previousEdge := some (170000 - 1000 * beating.camDebounce + 1) }
        running s = true ∧ 0 < s.trc.ramp ∧
          (if offset = 0 then 170000 + offset - (170000 - 1000 * beating.camDebounce + 1) < 1000 * s.camDebounce
           else 1000 * s.camDebounce ≤ 170000 + offset - (170000 - 1000 * beating.camDebounce + 1))) := by
  decide +kernel

theorem witness_OutputSampleIsMixed :
    (running muted = true ∧ muted.snd.on = false) ∧
      (running normal = true ∧ normal.snd.on = true ∧ normal.snd.pool.length = 4) := by
  decide +kernel

/-- A table of cues: cue 0 of 10 samples goes on to cue 1, which loops from 2 to 5 of its 8 samples. -/
def sounding (v : Voice) (stack : List Nat) : State :=
  let cues := splice (splice normal.tbs.active.cues 3 [0, 0, 10]) 19 [0, 0, 8]
  let s := normal.setTbs { normal.tbs with active := { normal.tbs.active with cues := cues } }
  s.setSnd { s.snd with chuff := v, background := v, pool := [v, voiceFree, v, voiceFree], stack := stack, nextOrder := 3 }

theorem witness_VoicesMoveOn :
    ∀ p ∈ [0, 8, 9], let s := sounding ⟨some 0, p, false, 200, 1⟩ []
      running s = true ∧ s.snd.on = true ∧ s.snd.pool.length = 4 ∧ s.snd.chuff.cue = some 0 ∧
        s.snd.background.cue = some 0 ∧ (s.snd.pool.getD 2 voiceFree).cue = some 0 ∧
        (s.snd.pool.getD 3 voiceFree).cue = none ∧ (s.cueRecord 0).length = 10 ∧ s.snd.stack = [] := by
  decide +kernel

/-- Cue 1 ends with the next cue 0, in voices 2 and 4: with the resume stack empty, with cue 0 on it, with another on it,
and with cue 0 playing elsewhere; and an idle background voice with a cue to take up. -/
theorem witness_VoicesMoveOn_next_cues :
    ∀ stack ∈ [[], [0], [5]], ∀ p ∈ [voiceFree, ⟨some 0, 1, true, 9, 1⟩],
      let s := sounding ⟨some 1, 7, false, 200, 1⟩ stack
      let s := setting 32 [1] (s.setTbs { s.tbs with active := { s.tbs.active with
        cues := splice s.tbs.active.cues 22 [0x40, 0] } })
      let s := s.setSnd { s.snd with background := voiceFree, pool := setAt s.snd.pool 3 p }
      running s = true ∧ s.snd.on = true ∧ s.snd.pool.length = 4 ∧ (s.cueRecord 1).length = 8 ∧
        (s.cueRecord 1).next = some 0 ∧ (s.cueRecord 0).length ≠ 0 ∧ s.snd.stack = stack ∧
        s.snd.background.cue = none ∧ s.trc.published.moving = false ∧ s.bgIdleCue = 1 := by
  decide +kernel

theorem witness_TriggersAndReleasesUseThePool :
    (let s := sounding ⟨some 0, 0, true, 200, 1⟩ []
     s.snd.pool.length = 4 ∧ s.snd.on = true ∧ (s.cueRecord 0).length ≠ 0 ∧ (s.snd.pool.getD 0 voiceFree).cue = some 0 ∧
      (s.cueRecord 1).length ≠ 0 ∧ (∀ p, p < 4 → (s.snd.pool.getD p voiceFree).cue ≠ some 1) ∧
      (s.snd.pool.getD 1 voiceFree).cue = none) ∧
      (let s := normal.setSnd { normal.snd with pool := [⟨some 5, 0, true, 1, 4⟩, ⟨some 6, 0, true, 1, 3⟩,
          ⟨some 7, 0, true, 1, 2⟩, ⟨some 8, 0, true, 1, 5⟩] }
       (∀ p, p < 4 → (s.snd.pool.getD p voiceFree).cue ≠ none) ∧
        ∀ j, j < 4 → j ≠ 2 → (s.snd.pool.getD 2 voiceFree).order < (s.snd.pool.getD j voiceFree).order) ∧
      muted.snd.pool.length = 4 ∧ muted.snd.on = false := by
  decide +kernel

/-- The sectors 4095 and 4096, and a byte at the end of the memory and past it. -/
theorem witness_SampleRequestsFollowTheirTests :
    (∀ p ∈ [[0x0F, 0xFF], [0x10, 0x00]], forPrimary muted 10 p ∧ forPrimary normal 10 p) ∧
      (∀ p ∈ [[0xFF, 0xFF, 0xFF, 1], [0xFF, 0xFF, 0xFF, 1, 2]], forPrimary muted 11 p ∧ forPrimary normal 11 p) ∧
      muted.snd.on = false ∧ muted.snd.writeState = .idle ∧ normal.snd.on = true ∧
      forPrimary (setWriteState muted (.erasing 0)) 10 [0, 0] ∧ forPrimary (setWriteState muted (.erasing 0)) 11 [0, 0, 0, 1] := by
  decide +kernel

theorem witness_EraseAndProgramChangeTheirBytes :
    ∀ w ∈ [SampleWrite.erasing 4095, .programming 16777215 [0xA5]],
      let s := (setWriteState muted w).setSamples [(0, 1), (16777215, 0x5A)]
      running s = true ∧ memoryWf s.samples = true ∧ s.snd.writeState = w := by
  decide +kernel

/-- In every smoke state. -/
theorem witness_SmokeTimersAndResults :
    ∀ k ∈ [SmokeState.off, .heating, .ready, .suspended, .fault],
      let s := converting ⟨.smokeT, .queue, .smk, false⟩ (heating.setSmk { heating.smk with state := k })
      running s = true ∧ s.msq.converting = some ⟨.smokeT, .queue, .smk, false⟩ ∧ 0 < s.smkDry ∧ s.smkDry ≤ 4095 := by
  decide +kernel

/-- A unit that is OFF under a cap and under none, and one that resumes with a fresh temperature, a stale one and none. -/
theorem test_smoke_enable_and_caps :
    (smokeEnable normal true).smk.state = .heating ∧ (smokeEnable (normal.setSmk smkReset) true).smk.state = .suspended ∧
      (smokeEnable heating false).smk.state = .off ∧
      (smokeCap (smokeCap heating 0) 230).smk.heater = 230 ∧
      (smokeCap (smokeCap (heating.setSmk { heating.smk with fresh := false }) 0) 230).smk.heater = 0 ∧
      (smokeCap (smokeCap (heating.setSmk { heating.smk with temperature := none }) 0) 230).smk.state = .heating := by
  decide +kernel

/-- Output 0 and output 7, dark and lit, with each effect, and a blink and a soft timer running. -/
theorem witness_LampsShowTheirDemands :
    (∀ n ∈ [0, 7], ∀ e ∈ [Effect.steady, .flicker, .blink, .soft],
      let s := setLamp normal n { lampReset with on := true, effect := e, blinkTimer := some 1, softTimer := some 1 }
      running s = true ∧ s.lmp.outputs.length = 8 ∧ (s.lmp.outputs.getD n lampReset).effect = e ∧
        (s.lmp.outputs.getD n lampReset).blinkTimer ≠ none) ∧
      State.reset.lmp.outputs.length = 8 ∧ ¬(State.reset.lmp.power = .normal ∨ State.reset.lmp.power = .coast) := by
  decide +kernel

/-- A lit lamp goes dark in HOLD and shows its demand again in NORMAL, a soft one rising from 0. -/
theorem test_lamps_at_power_announcements :
    let s := lampDemanded (lampDemanded normal 0 (some ⟨.steady, true⟩)) 7 (some ⟨.soft, false⟩)
    (lampAt s.lmp 0).shown = 31 ∧ (lampAt (lampsPower s .hold).lmp 0).shown = 0 ∧
      (lampAt (lampsPower (lampsPower s .hold) .normal).lmp 0).shown = 31 ∧
      (lampAt (lampsPower (lampsPower s .hold) .normal).lmp 7).softTimer = some 10000 := by
  decide +kernel

/-- At the level and one below it, for a source that reads present and one that does not, active and not, and with each
conversion that the fast return can meet. -/
theorem witness_SourcesComeAndGo :
    (running normal = true ∧ (supplyOf normal.ppm .battery).qualification = .absent ∧
      (supplyOf normal.ppm .battery).present = false ∧ 16 * normal.battMin = 960 ∧ 16 * normal.trackMin = 1280) ∧
      ((supplyOf normal.ppm .track).present = true ∧ (supplyOf normal.ppm .track).qualification = .qualified ∧
        normal.ppm.active = activeOf .track ∧ normal.ppm.power = .normal ∧ normal.msq.slot = .empty) ∧
      (let s := normal.setPpm { normal.ppm with battery := ⟨2000, true, .qualifying, some 20000, true⟩ }
       running s = true ∧ (supplyOf s.ppm .battery).timer ≠ none ∧
        (supplyOf s.ppm .battery).qualification = .qualifying ∧ s.ppm.active ≠ activeOf .battery ∧
        (converting ⟨.batteryV, .inject, .ppm, false⟩ s).msq.converting =
          some ⟨supplyChannel .battery, .inject, .ppm, false⟩ ∧ 16 * s.battMin ≤ 4095 ∧ 0 < 16 * s.battMin) ∧
      (let s := normal.setPpm { normal.ppm with battery := ⟨2000, true, .qualified, none, false⟩ }
       (supplyOf s.ppm (otherSupply .track)).qualification = .qualified) ∧
      (let s := coasting.setPpm { coasting.ppm with track := ⟨2000, true, .qualifying, some 50000, true⟩ }
       (supplyOf s.ppm .track).timer ≠ none ∧ s.ppm.active ≠ activeOf .track ∧
        s.ppm.active ≠ activeOf (otherSupply .track) ∧ s.ppm.power ≠ .normal) := by
  decide +kernel

theorem witness_PowerTimersExpire :
    (running coasting = true ∧ coasting.ppm.coastTimer ≠ none ∧ coasting.ppm.power = .coast ∧ DemandSafe coasting ∧
      BridgeSafe coasting ∧ coasting.ppm.bufferTimer ≠ none) ∧
      (running normal = true ∧ normal.ppm.coastTimer = none) ∧
      ∀ n ∈ [0, 2, 3], (normal.setPpm { normal.ppm with overTimer := some 1, underTimer := some 1, shed := n }).ppm.shed = n := by
  decide +kernel

theorem witness_ReadingsAndCaps :
    (∀ s ∈ [normal, coasting], ∀ c ∈ [Channel.bufferV, .supplyI, .boardT],
      let s := converting ⟨c, .scan, .scan, false⟩ s
      running s = true ∧ s.msq.converting = some ⟨c, .scan, .scan, false⟩) ∧
      let s := converting ⟨.bufferV, .queue, .ppm, false⟩ coasting
      running s = true ∧ s.msq.converting = some ⟨.bufferV, .queue, .ppm, false⟩ ∧ s.ppm.power = .coast := by
  decide +kernel

theorem witness_ResetsAreTakenAndReleased :
    memoryWf driving.samples = true ∧
      (∀ p ∈ [[0, 3, 0], [0, 4, 0], [0, 3, 1], [0, 4, 1]], forPrimary driving 12 p) ∧ driving.primaryAddress = 3 ∧
      (inReset .restoring).ppm.phase = .restoring ∧ (inReset (.held .factory)).ppm.phase = .held .factory ∧
      (inReset .restoring).ppm.phase ≠ .held .factory ∧
      imagePasses .settings (inReset (.held .factory)).store.settings = true ∧
      byteAt (inReset (.held .factory)).store.settings.bytes 47 = 80 := by
  decide +kernel

/-! ### A state under way that meets every law -/

/-- The part under way on track power, its functions evaluated, with a frame and a copy waiting, a gap pending behind a
scanned conversion, and a frame being collected. -/
def cruising : State :=
  let s := evaluate driving
  let f := makeFrame 0 3 [0, 100]
  let s := s.setCli { s.cli with inbound := [f], relays := [f], relaySending := true,
                                 assembler := some ⟨[1, 0x23, 0], some 4⟩, interByte := some 5000 }
  let s := s.setMsq { s.msq with converting := some ⟨.motorI, .scan, .scan, false⟩, pass := [.motorI, .trackV], gap := .offered }
  ((s.setTrc { s.trc with outstanding := true }).setMbr { s.mbr with gap := .pending }).setPending [.pwmPeriodEnd]

theorem witness_of_the_laws_a_step : ∃ t, step cruising = .next t := ⟨_, rfl⟩

theorem witness_LinkStaysSound : LinkSafe cruising ∧ FramesSafe cruising := by decide +kernel

/-- The laws of the table store after a reset that cut a nonvolatile write short. -/
theorem witness_EditSafe_in_reset :
    let s := driving.setTbs { driving.tbs with writing := some .map }
    EditSafe s ∧ ∃ t, exec (.powerOnReset 0) s = .next t ∧ t.ppm.phase ≠ .running ∧ EditSafe t :=
  ⟨by decide +kernel, _, rfl, by decide +kernel, by decide +kernel⟩

theorem witness_TablesStaySound : ActiveSafe cruising ∧ StoreSafe cruising ∧ EditSafe cruising := by decide +kernel

theorem witness_MapAndCopiesStaySound : MapSafe cruising ∧ DeliveredSafe cruising ∧ CopiesSafe cruising := by
  decide +kernel

theorem witness_TractionStaysSound :
    LatchSafe cruising ∧ DutySafe cruising ∧ RangeSafe cruising ∧ DemandSafe cruising ∧ BridgeSafe cruising ∧
      AppliedSafe cruising := by
  decide +kernel

theorem witness_SenseSafe : SenseSafe cruising := by decide +kernel

theorem witness_BridgeAndSequencerStaySound : GapSafe cruising ∧ SequencerSafe cruising ∧ BemfSafe cruising := by
  have c : cruising.msq.converting = some ⟨.motorI, .scan, .scan, false⟩ := by decide +kernel
  have e : cruising.msq.slot = .empty := by decide +kernel
  refine ⟨by decide +kernel, ⟨by decide +kernel, by decide +kernel, by decide +kernel, by decide +kernel,
    by decide +kernel, fun x hx => ?_, by decide +kernel, ?_, by decide +kernel⟩, by decide +kernel⟩
  · rw [c] at hx
    cases hx
    exact ⟨rfl, rfl, by decide⟩
  · rw [slotSound, e]
    trivial

theorem witness_OutputsStaySound :
    CamSafe cruising ∧ PoolSafe cruising ∧ EngineSafe cruising ∧ SampleSafe cruising ∧ HeaterSafe cruising ∧
      CapsSafe cruising ∧ SmokeSafe cruising ∧ LampSafe cruising := by
  refine ⟨⟨by decide +kernel, by decide +kernel, by decide +kernel, by decide +kernel, fun n h => ?_⟩,
    by decide +kernel, by decide +kernel, ⟨by decide +kernel, trivial⟩, by decide +kernel, by decide +kernel,
    by decide +kernel, by decide +kernel⟩
  have q : cruising.cam.qualification = .unqualified := by decide +kernel
  rw [q] at h
  cases h

theorem witness_PowerAndResetStaySound : PowerSafe cruising ∧ SupplySafe cruising ∧ ResetSafe cruising := by
  refine ⟨by decide +kernel, fun x => ?_, fun h => absurd (by decide +kernel) h⟩
  cases x <;> decide +kernel

/-- The laws of a part in reset. -/
theorem witness_ResetSafe_in_reset : ∃ t, exec (.powerOnReset 0) driving = .next t ∧ t.ppm.phase ≠ .running ∧ ResetSafe t :=
  ⟨_, rfl, by decide +kernel, by decide +kernel⟩

end Sys2Proof.Tests
end

section
/-!
SUPPORT. The operations of the command link: what each of them does to CLI, and that every command does to CLI only these.
-/
namespace Sys2Proof.Laws

open Sys2Proof.Machine

/-! ### The operations of the link -/

/-- What can be done to CLI in one go: the events of its lines (chapter 1), the taking of a head frame with or without a
relay copy (R20, R21), the offering of a reply and the clearing of its flags (R12, R16), and a reset (R17). -/
inductive LinkOp : Cli → Cli → Prop
  | character (c : Cli) (b : Byte) (marker : Bool) : LinkOp c (characterTaken c b marker)
  | broken (c : Cli) : LinkOp c (assemblerDiscard c)
  | expired (c : Cli) : LinkOp c (interByteExpiry c)
  | replyGone (c : Cli) : LinkOp c (replySent c)
  | relayGone (c : Cli) : LinkOp c (relaySent c)
  | taken {c : Cli} {f : Frame} {rest : List Frame} (h : c.inbound = f :: rest) : LinkOp c (inboundTake c rest)
  | relayed {c : Cli} {f : Frame} {rest : List Frame} (h : c.inbound = f :: rest) :
      LinkOp c (relayPlace (inboundTake c rest) f)
  | offered (c : Cli) (f : Frame) : LinkOp c (replyOffer c f)
  | cleared (c : Cli) : LinkOp c (clearLinkFlags c)
  | reset (c : Cli) : LinkOp c cliReset

/-- What can be done to CLI by operations one after another. -/
abbrev LinkReaches : Cli → Cli → Prop := Relation.ReflTransGen LinkOp

theorem linkReaches_of_eq {c d : Cli} (h : d = c) : LinkReaches c d := h ▸ .refl

/-! ### Each command by those operations -/

theorem live_linkReaches {f : State → State} {s t : State} (ht : live f s = .next t)
    (h : LinkReaches s.cli (f s).cli) : LinkReaches s.cli t.cli := by
  cases hr : running s
  · rw [live_reset hr] at ht
    cases ht
    exact .refl
  · rw [live_running hr] at ht
    cases ht
    exact h

theorem settled_linkReaches {f : State → State} {s t : State} (ht : settled f s = .next t)
    (h : LinkReaches s.cli (f s).cli) : LinkReaches s.cli t.cli := by
  cases hr : running s
  · rw [settled_reset hr] at ht
    cases ht
    exact .refl
  · rw [settled_running hr] at ht
    cases ht
    simpa using h

/-- A frame is taken by one operation. -/
theorem frameTaken_linkOp {s : State} {f : Frame} {rest : List Frame} (h : s.cli.inbound = f :: rest) :
    LinkOp s.cli (frameTaken s f rest).cli := by
  obtain ⟨-, relay, noRelay⟩ := frameTaken_spec s f rest
  by_cases hw : relayWanted s f
  · rw [relay hw]
    exact .relayed h
  · rw [noRelay hw]
    exact .taken h

/-- A dispatch reaches what the handing on reaches. -/
theorem dispatch_linkReaches {row : Frame → Bool} {hand : State → Frame → Via → State} (s : State)
    (h : ∀ u f via, LinkReaches u.cli (hand u f via).cli) : LinkReaches s.cli (dispatch row hand s).cli := by
  cases hin : s.cli.inbound with
  | nil => exact linkReaches_of_eq (by simp [dispatch, hin])
  | cons f rest =>
    have taking := Relation.ReflTransGen.single (frameTaken_linkOp hin)
    cases hf : row f with
    | false => exact linkReaches_of_eq (by simp [dispatch, hin, hf])
    | true =>
      cases hv : handedVia s f with
      | none =>
        rw [dispatch_discarded hin hf hv]
        exact taking
      | some via =>
        rw [dispatch_handed hin hf hv]
        exact taking.trans (h _ _ _)

/-- A reply built for a state whose CLI is untouched. -/
theorem answered_linkReaches (old s : State) {u : State} (kind : Nat) (a : Answer) (h : s.cli = u.cli) :
    LinkReaches u.cli (answered old s kind a).cli := by
  rw [← h]
  exact .single (.offered _ _)

theorem ownerHeard_cli (s : State) : (ownerHeard s).cli = s.cli := by
  simp only [ownerHeard, signalCleared]
  split <;> simp

theorem handDrive_cli (s : State) (f : Frame) (via : Via) : (handDrive s f via).cli = s.cli := by
  simp only [handDrive]
  split <;> simp [ownerHeard_cli]

theorem handHaltNormal_cli (s : State) (f : Frame) (via : Via) : (handHaltNormal s f via).cli = s.cli := by
  simp only [handHaltNormal, haltStated]
  split <;> simp [ownerHeard_cli]

theorem handHaltEmergency_cli (s : State) (f : Frame) (via : Via) : (handHaltEmergency s f via).cli = s.cli := by
  simp only [handHaltEmergency, emergencyHalt_keeps]
  split <;> simp [ownerHeard_cli]

theorem handFunc_cli (s : State) (f : Frame) (via : Via) : (handFunc s f via).cli = s.cli := by
  cases via <;> simp [handFunc]

/-- CLI after a STATUS_REQ: a reply offered, and the flags cleared if it has joined the queue (R16). -/
theorem handStatus_cli (s : State) (f : Frame) (via : Via) :
    (handStatus s f via).cli =
      let offered := replyOffer s.cli (makeFrame 14 s.primaryAddress (statusRecord s))
      if replyRoom s.cli then clearLinkFlags offered else offered := by
  simp only [handStatus]
  split <;> simp [offerReply]

theorem handStatus_linkReaches (s : State) (f : Frame) (via : Via) :
    LinkReaches s.cli (handStatus s f via).cli := by
  rw [handStatus_cli]
  have offering := Relation.ReflTransGen.single
    (LinkOp.offered s.cli (makeFrame 14 s.primaryAddress (statusRecord s)))
  dsimp only
  split
  · exact offering.tail (.cleared _)
  · exact offering

theorem handCommit_linkReaches (s : State) (f : Frame) (via : Via) :
    LinkReaches s.cli (handCommit s f via).cli := by
  refine answered_linkReaches s (cfgCommit s).1 8 (cfgCommit s).2 ?_
  simp only [cfgCommit]
  (repeat' split) <;> simp

theorem handErase_linkReaches (s : State) (f : Frame) (via : Via) :
    LinkReaches s.cli (handErase s f via).cli := by
  simp only [handErase]
  split <;> exact answered_linkReaches s _ 10 _ rfl

theorem handProgram_linkReaches (s : State) (f : Frame) (via : Via) :
    LinkReaches s.cli (handProgram s f via).cli := by
  simp only [handProgram]
  split <;> exact answered_linkReaches s _ 11 _ rfl

theorem resetTaken_linkReaches (s : State) (written : Nat) (phase : Phase) :
    LinkReaches s.cli (resetTaken s written phase).cli := .single (.reset _)

theorem handReset_linkReaches (phase : Phase) (s : State) (f : Frame) (via : Via) :
    LinkReaches s.cli (handReset phase s f via).cli := by
  simp only [handReset]
  split
  · exact resetTaken_linkReaches s 0 phase
  · exact answered_linkReaches s s 12 _ rfl

theorem restoreDone_cli (s : State) : (restoreDone s).cli = s.cli := by
  simp only [restoreDone]
  split <;> simp

theorem presentQualifies_cli (s : State) (x : Supply) : (presentQualifies s x).cli = s.cli := by
  simp only [presentQualifies]
  split <;> simp

/-- The release of a reset leaves CLI in its reset state. -/
theorem released_cli (s : State) (kind : ResetKind) : (released s kind).cli = cliReset := by
  simp only [released, presentQualifies_cli, announce_keeps]
  rfl

theorem resetReleased_linkReaches (s : State) : LinkReaches s.cli (resetReleased s).cli := by
  simp only [resetReleased]
  split
  · rw [released_cli]
    exact .single (.reset _)
  · exact .refl
  · exact .refl

theorem lossExpiry_cli (s : State) : (lossExpiry s).cli = s.cli := by
  simp only [lossExpiry, signalSet]
  (repeat' split) <;> simp

/-- Every command does to CLI only what the operations of the link do. -/
theorem exec_linkReaches {i : Instr} {s t : State} (ht : exec i s = .next t) : LinkReaches s.cli t.cli := by
  cases i
  case characterReceived => exact live_linkReaches ht (.single (.character _ _ _))
  case brokenCharacter => exact live_linkReaches ht (.single (.broken _))
  case interByteTimerExpiry => exact live_linkReaches ht (.single (.expired _))
  case replyFrameSent => exact live_linkReaches ht (.single (.replyGone _))
  case relayFrameSent => exact live_linkReaches ht (.single (.relayGone _))
  case replyFrameTaken => exact live_linkReaches ht (dispatch_linkReaches s fun _ _ _ => .refl)
  case drive =>
    exact settled_linkReaches ht (dispatch_linkReaches s fun u f v => linkReaches_of_eq (handDrive_cli u f v))
  case haltNormal =>
    exact settled_linkReaches ht (dispatch_linkReaches s fun u f v => linkReaches_of_eq (handHaltNormal_cli u f v))
  case haltEmergency =>
    exact settled_linkReaches ht (dispatch_linkReaches s fun u f v => linkReaches_of_eq (handHaltEmergency_cli u f v))
  case func =>
    exact settled_linkReaches ht (dispatch_linkReaches s fun u f v => linkReaches_of_eq (handFunc_cli u f v))
  case statusReq => exact live_linkReaches ht (dispatch_linkReaches s handStatus_linkReaches)
  case cfgOpen => exact live_linkReaches ht (dispatch_linkReaches s fun u _ _ => answered_linkReaches u _ 4 _ rfl)
  case cfgWrite => exact live_linkReaches ht (dispatch_linkReaches s fun u _ _ => answered_linkReaches u _ 5 _ rfl)
  case cfgPoint => exact live_linkReaches ht (dispatch_linkReaches s fun u _ _ => answered_linkReaches u _ 6 _ rfl)
  case cfgRead => exact live_linkReaches ht (dispatch_linkReaches s fun u _ _ => answered_linkReaches u _ 7 _ rfl)
  case cfgCommit => exact settled_linkReaches ht (dispatch_linkReaches s handCommit_linkReaches)
  case cfgClose => exact live_linkReaches ht (dispatch_linkReaches s fun u _ _ => answered_linkReaches u _ 9 _ rfl)
  case sampleErase => exact live_linkReaches ht (dispatch_linkReaches s handErase_linkReaches)
  case sampleWrite => exact live_linkReaches ht (dispatch_linkReaches s handProgram_linkReaches)
  case resetNormal | resetFactory => exact live_linkReaches ht (dispatch_linkReaches s (handReset_linkReaches _))
  case factoryRestoreComplete =>
    cases ht
    exact linkReaches_of_eq (restoreDone_cli s)
  case powerOnReset | brownoutReset =>
    cases ht
    exact resetTaken_linkReaches s _ _
  case resetRelease =>
    cases ht
    exact resetReleased_linkReaches s
  case presenceGained | presenceLost =>
    refine Relation.ReflTransGen.trans (linkReaches_of_eq ?_)
      (settled_linkReaches ht (linkReaches_of_eq (by simp)))
    split <;> simp
  case silenceWatchElapsed | virtualChuff =>
    refine live_linkReaches ht (linkReaches_of_eq ?_)
    split <;> simp
  case commandLossTimerExpiry => exact settled_linkReaches ht (linkReaches_of_eq (lossExpiry_cli s))
  case nvWriteComplete | eraseComplete | programComplete | bemfTimerExpiry | pwmPeriodEnd | settleTimerExpiry
      | tripFreeTimerExpiry | scanTimerExpiry | camTick | camEdge | outputSample | smokeRequestTimerExpiry
      | ageTimerExpiry | puffTimerExpiry | flickerAdvance | blinkTimerExpiry | softTimerExpiry =>
    exact live_linkReaches ht (linkReaches_of_eq (by simp))
  case rampTick | stallTimerExpiry | overcurrentTrip | retryTimerExpiry | conversionComplete
      | qualificationTimerExpiry | coastTimerExpiry | bufferRequestTimerExpiry | overTimerExpiry | underTimerExpiry =>
    exact settled_linkReaches ht (linkReaches_of_eq (by simp))

/-- A step does to CLI only what the operations of the link do: FNU, which acts on an empty queue, leaves CLI alone. -/
theorem step_linkReaches {s t : State} (ht : step s = .next t) : LinkReaches s.cli t.cli := by
  cases hp : s.pending with
  | nil =>
    simp only [step, hp] at ht
    cases ht
    exact linkReaches_of_eq (by simp)
  | cons c rest =>
    simp only [step, hp] at ht
    exact exec_linkReaches (s := s.setPending rest) ht

end Sys2Proof.Laws
end

section
/-!
SUPPORT. The laws of the command link, kept by each of its operations (R6 to R16).
-/
namespace Sys2Proof.Laws

open Sys2Proof.Machine

/-! ### The sizes of the queues, the senders and CMD_HOLD -/

/-- LinkSafe, as it speaks of CLI alone. -/
structure LinkSound (c : Cli) : Prop where
  inbound : c.inbound.length ≤ 8
  replies : c.replies.length ≤ 4
  relays : c.relays.length ≤ 4
  replySending : c.replySending = !c.replies.isEmpty
  relaySending : c.relaySending = !c.relays.isEmpty
  held : c.hold = true → 4 ≤ c.inbound.length
  released : c.hold = false → c.inbound.length ≤ 5
  checkErrors : c.checkErrors ≤ 255

theorem linkSafe_iff (s : State) : LinkSafe s ↔ LinkSound s.cli :=
  ⟨fun ⟨inbound, replies, relays, replySending, relaySending, held, released, checkErrors⟩ =>
      ⟨inbound, replies, relays, replySending, relaySending, held, released, checkErrors⟩,
    fun h => ⟨h.inbound, h.replies, h.relays, h.replySending, h.relaySending, h.held, h.released, h.checkErrors⟩⟩

theorem LinkSound.assemblerDiscard {c : Cli} (h : LinkSound c) : LinkSound (assemblerDiscard c) := by
  cases ha : c.assembler <;> simp only [Machine.assemblerDiscard, ha]
  · exact h
  · exact { h with }

theorem LinkSound.inboundJoin {c : Cli} (h : LinkSound c) (f : Frame) : LinkSound (inboundJoin c f) := by
  simp only [Machine.inboundJoin]
  split
  case isTrue room =>
    have held := h.held
    have released := h.released
    exact { h with
      inbound := by simpa using room
      held := fun hold => by
        simp only [Bool.or_eq_true, decide_eq_true_eq] at hold
        simp only [List.length_append, List.length_singleton]
        rcases hold with hold | six
        · have := held hold
          omega
        · omega
      released := fun hold => by
        simp only [Bool.or_eq_false_iff, decide_eq_false_iff_not] at hold
        simp only [List.length_append, List.length_singleton]
        have := released hold.1
        omega }
  case isFalse => exact { h with }

theorem LinkSound.frameComplete {c : Cli} (h : LinkSound c) (f : Frame) : LinkSound (frameComplete c f) := by
  simp only [Machine.frameComplete]
  split
  · exact h.inboundJoin f
  · exact { h with checkErrors := min_le_left 255 _ }

theorem LinkSound.characterTaken {c : Cli} (h : LinkSound c) (b : Byte) (marker : Bool) :
    LinkSound (characterTaken c b marker) := by
  have start : LinkSound (assemblerStart c b) := { h with }
  have idle : LinkSound (assemblerIdle c) := { h with }
  cases ha : c.assembler <;> cases marker <;> simp only [Machine.characterTaken, ha]
  case none.false => exact h
  case none.true => exact start
  case some.true => exact { start with }
  case some.false a =>
    simp only [assemblerAppend]
    (repeat' split)
    · exact { idle with }
    · exact idle.frameComplete _
    · exact { h with }

theorem LinkSound.inboundTake {c : Cli} {f : Frame} {rest : List Frame} (h : LinkSound c)
    (hin : c.inbound = f :: rest) : LinkSound (inboundTake c rest) := by
  have inbound := h.inbound
  have held := h.held
  have released := h.released
  simp only [hin, List.length_cons] at inbound held released
  exact { h with
    inbound := by simp only [Machine.inboundTake]; omega
    held := fun hold => by
      simp only [Machine.inboundTake, Bool.and_eq_true, decide_eq_true_eq] at hold ⊢
      have := held hold.1
      omega
    released := fun hold => by
      simp only [Machine.inboundTake, Bool.and_eq_false_iff, decide_eq_false_iff_not, not_not] at hold ⊢
      rcases hold with hold | three
      · have := released hold
        omega
      · omega }

theorem LinkSound.replyOffer {c : Cli} (h : LinkSound c) (f : Frame) : LinkSound (replyOffer c f) := by
  simp only [Machine.replyOffer, replyRoom, decide_eq_true_eq]
  split
  · exact { h with replies := by simpa, replySending := by simp }
  · exact { h with }

theorem LinkSound.replySent {c : Cli} (h : LinkSound c) : LinkSound (replySent c) := by
  have replies := h.replies
  simp only [Machine.replySent]
  split
  · exact { h with replies := by rw [List.length_tail]; omega, replySending := rfl }
  · exact h

theorem LinkSound.relaySent {c : Cli} (h : LinkSound c) : LinkSound (relaySent c) := by
  have relays := h.relays
  simp only [Machine.relaySent]
  split
  · exact { h with relays := by rw [List.length_tail]; omega, relaySending := rfl }
  · exact h

/-- The oldest copy that is not being sent makes room for one. -/
theorem relayDisplaceOldest_length (sending : Bool) (q : List Frame) (h : q.length = 4) :
    (relayDisplaceOldest sending q).length = 3 := by
  obtain ⟨g₁, g₂, g₃, g₄, rfl⟩ := List.length_eq_four.mp h
  cases sending <;> rfl

theorem LinkSound.relayPlace {c : Cli} (h : LinkSound c) (f : Frame) : LinkSound (relayPlace c f) := by
  have relays := h.relays
  simp only [Machine.relayPlace]
  split
  · exact { h with relays := by simpa, relaySending := by simp }
  · have three := relayDisplaceOldest_length c.relaySending c.relays (by omega)
    exact { h with relays := by simp [three], relaySending := by simp }

theorem linkSound_cliReset : LinkSound cliReset := (linkSafe_iff State.reset).mp (by decide)

/-- Every operation of the link keeps its queues, senders and hold line. -/
theorem LinkSound.linkOp {c d : Cli} (h : LinkSound c) (op : LinkOp c d) : LinkSound d := by
  cases op with
  | character b marker => exact h.characterTaken b marker
  | broken => exact h.assemblerDiscard
  | expired =>
    simp only [interByteExpiry]
    split
    · exact h.assemblerDiscard
    · exact h
  | replyGone => exact h.replySent
  | relayGone => exact h.relaySent
  | taken hin => exact h.inboundTake hin
  | relayed hin => exact (h.inboundTake hin).relayPlace _
  | offered f => exact h.replyOffer f
  | cleared => exact { h with checkErrors := Nat.zero_le _ }
  | reset => exact linkSound_cliReset

/-! ### Good frames and the assembler -/

/-- FramesSafe, as it speaks of CLI alone. -/
structure FramesSound (c : Cli) : Prop where
  inbound : ∀ f ∈ c.inbound, goodFrame f
  relays : ∀ f ∈ c.relays, goodFrame f
  assembler : ∀ a ∈ c.assembler, assemblySound a
  interByte : c.interByte = c.assembler.map (fun _ => interByteTime)

theorem framesSafe_iff (s : State) : FramesSafe s ↔ FramesSound s.cli :=
  ⟨fun ⟨inbound, relays, assembler, interByte⟩ => ⟨inbound, relays, assembler, interByte⟩,
    fun h => ⟨h.inbound, h.relays, h.assembler, h.interByte⟩⟩

theorem FramesSound.assemblerIdle {c : Cli} (h : FramesSound c) : FramesSound (assemblerIdle c) :=
  { h with assembler := by simp [Machine.assemblerIdle], interByte := rfl }

theorem FramesSound.assemblerDiscard {c : Cli} (h : FramesSound c) : FramesSound (assemblerDiscard c) := by
  cases ha : c.assembler <;> simp only [Machine.assemblerDiscard, ha]
  · exact h
  · exact { h.assemblerIdle with }

/-- The inter-byte timer (re)started for a frame of which one byte more has come. -/
theorem FramesSound.collecting {c : Cli} (h : FramesSound c) {a : Assembly} (ha : assemblySound a) :
    FramesSound { c with assembler := some a, interByte := some interByteTime } :=
  { h with
    assembler := fun _ hx => Option.mem_some.mp hx ▸ ha
    interByte := rfl }

/-- The Length of a frame stands in its third byte, whatever follows. -/
theorem frameLength_append {p q : List Byte} (h : 3 ≤ p.length) : frameLength (p ++ q) = frameLength p := by
  simp only [frameLength, byteAt, List.getD_eq_getElem?_getD]
  rw [List.getElem?_append_left (by omega)]

/-- The third byte is the Length. -/
theorem frameLength_concat {p : List Byte} (h : p.length = 2) (b : Byte) : frameLength (p ++ [b]) = b.toNat := by
  simp [frameLength, byteAt, ← h]

/-- The size that the assembler holds after a byte that does not discard the frame (R6). -/
theorem assemblySound_append {a : Assembly} (ha : assemblySound a) {b : Byte}
    (long : ¬(a.bytes.length = 2 ∧ 16 < b.toNat)) (more : assemblyTotal a b ≠ some (a.bytes ++ [b]).length) :
    assemblySound ⟨a.bytes ++ [b], assemblyTotal a b⟩ := by
  simp only [assemblySound, assemblyTotal, List.length_append, List.length_singleton] at more ⊢
  rcases ha with ⟨one, two, unknown⟩ | ⟨three, short, total, open_⟩
  · by_cases second : a.bytes.length = 2
    · right
      rw [frameLength_concat second, if_pos second]
      exact ⟨by omega, by omega, rfl, by omega⟩
    · left
      rw [if_neg second]
      exact ⟨by omega, by omega, unknown⟩
  · right
    rw [if_neg (by omega), total, ne_eq, Option.some_inj] at more
    rw [if_neg (by omega), frameLength_append three]
    exact ⟨by omega, short, total, by omega⟩

/-- A frame that has reached its size has the Length of a good one. -/
theorem size_of_complete {a : Assembly} (ha : assemblySound a) {b : Byte}
    (done : assemblyTotal a b = some (a.bytes ++ [b]).length) :
    frameLength (a.bytes ++ [b]) ≤ 16 ∧ (a.bytes ++ [b]).length = 4 + frameLength (a.bytes ++ [b]) := by
  simp only [assemblyTotal, List.length_append, List.length_singleton] at done ⊢
  rcases ha with ⟨one, two, unknown⟩ | ⟨three, short, total, open_⟩
  · by_cases second : a.bytes.length = 2
    · rw [if_pos second, Option.some_inj] at done
      omega
    · rw [if_neg second, unknown] at done
      cases done
  · rw [if_neg (by omega), total, Option.some_inj] at done
    rw [frameLength_append three]
    omega

theorem FramesSound.inboundJoin {c : Cli} (h : FramesSound c) {f : Frame} (hf : goodFrame f) :
    FramesSound (inboundJoin c f) := by
  simp only [Machine.inboundJoin]
  split
  · exact { h with inbound := List.forall_mem_append.mpr ⟨h.inbound, List.forall_mem_singleton.mpr hf⟩ }
  · exact { h with }

theorem FramesSound.frameComplete {c : Cli} (h : FramesSound c) {f : Frame}
    (hf : frameLength f ≤ 16 ∧ f.length = 4 + frameLength f) : FramesSound (frameComplete c f) := by
  simp only [Machine.frameComplete]
  split
  case isTrue sum => exact h.inboundJoin ⟨hf.1, hf.2, sum⟩
  case isFalse => exact { h with }

theorem FramesSound.characterTaken {c : Cli} (h : FramesSound c) (b : Byte) (marker : Bool) :
    FramesSound (characterTaken c b marker) := by
  have start : FramesSound (assemblerStart c b) := h.collecting (.inl ⟨le_refl 1, one_le_two, rfl⟩)
  cases ha : c.assembler <;> cases marker <;> simp only [Machine.characterTaken, ha]
  case none.false => exact h
  case none.true => exact start
  case some.true => exact { start with }
  case some.false a =>
    have sound : assemblySound a := h.assembler a ha
    simp only [assemblerAppend, Bool.and_eq_true, decide_eq_true_eq]
    split
    case isTrue => exact { h.assemblerIdle with }
    case isFalse long =>
      split
      case isTrue done => exact h.assemblerIdle.frameComplete (size_of_complete sound done)
      case isFalse more => exact h.collecting (assemblySound_append sound long more)

theorem relayDisplaceOldest_subset (sending : Bool) (q : List Frame) : relayDisplaceOldest sending q ⊆ q := by
  unfold relayDisplaceOldest
  split
  · exact List.cons_subset_cons _ (List.tail_subset _)
  · exact List.tail_subset _

theorem FramesSound.relayPlace {c : Cli} (h : FramesSound c) {f : Frame} (hf : goodFrame f) :
    FramesSound (relayPlace c f) := by
  have new := List.forall_mem_singleton.mpr hf
  simp only [Machine.relayPlace]
  split
  · exact { h with relays := List.forall_mem_append.mpr ⟨h.relays, new⟩ }
  · have kept : ∀ g ∈ relayDisplaceOldest c.relaySending c.relays, goodFrame g :=
      fun g hg => h.relays g (relayDisplaceOldest_subset _ _ hg)
    exact { h with relays := List.forall_mem_append.mpr ⟨kept, new⟩ }

/-- Of a sound link the head frame is good, and taking it leaves the link sound. -/
theorem FramesSound.inboundTake {c : Cli} {f : Frame} {rest : List Frame} (h : FramesSound c)
    (hin : c.inbound = f :: rest) : goodFrame f ∧ FramesSound (inboundTake c rest) := by
  have inbound := h.inbound
  rw [hin] at inbound
  obtain ⟨good, waiting⟩ := List.forall_mem_cons.mp inbound
  exact ⟨good, { h with inbound := waiting }⟩

theorem FramesSound.replyOffer {c : Cli} (h : FramesSound c) (f : Frame) : FramesSound (replyOffer c f) := by
  simp only [Machine.replyOffer]
  split <;> exact { h with }

theorem framesSound_cliReset : FramesSound cliReset := (framesSafe_iff State.reset).mp (by decide)

/-- Every operation of the link keeps to good frames and a sound assembler. -/
theorem FramesSound.linkOp {c d : Cli} (h : FramesSound c) (op : LinkOp c d) : FramesSound d := by
  cases op with
  | character b marker => exact h.characterTaken b marker
  | broken => exact h.assemblerDiscard
  | expired =>
    simp only [interByteExpiry]
    split
    · exact h.assemblerDiscard
    · exact h
  | replyGone =>
    simp only [replySent]
    split
    · exact { h with }
    · exact h
  | relayGone =>
    simp only [relaySent]
    split
    · exact { h with relays := fun f hf => h.relays f (List.mem_of_mem_tail hf) }
    · exact h
  | taken hin => exact (h.inboundTake hin).2
  | relayed hin =>
    obtain ⟨good, taken⟩ := h.inboundTake hin
    exact taken.relayPlace good
  | offered f => exact h.replyOffer f
  | cleared => exact { h with }
  | reset => exact framesSound_cliReset

/-- What every operation of the link keeps, any number of them keep. -/
theorem linkReaches_keeps {P : Cli → Prop} (keeps : ∀ {c d : Cli}, P c → LinkOp c d → P d) {c d : Cli}
    (reaches : LinkReaches c d) (h : P c) : P d := by
  induction reaches with
  | refl => exact h
  | tail _ op ih => exact keeps ih op

/-- Settles O8: each law speaks of CLI alone, and each operation of the link keeps it. -/
theorem linkStaysSound : Obligations.LinkStaysSound := by
  unfold Obligations.LinkStaysSound
  intro s t ht
  rw [linkSafe_iff, linkSafe_iff, framesSafe_iff, framesSafe_iff]
  have reaches := step_linkReaches ht
  exact ⟨linkReaches_keeps LinkSound.linkOp reaches, linkReaches_keeps FramesSound.linkOp reaches⟩

end Sys2Proof.Laws
end

section
/-!
PROOFS. The events of the serial lines, and the queues of the two senders (chapter 1).
-/
namespace Sys2Proof.Laws

open Sys2Proof.Machine

theorem sameBut_setCli (s : State) (c : Cli) : SameBut [.cli] s (s.setCli c) := by
  intro p hp
  cases p with
  | cli => simp at hp
  | _ => rfl

/-! ### The events in a running part -/

section
variable {s : State} (h : running s = true)
include h

theorem exec_characterReceived (b : Byte) (marker : Bool) :
    exec (.characterReceived b marker) s = .next (s.setCli (characterTaken s.cli b marker)) := live_running h

theorem exec_brokenCharacter : exec .brokenCharacter s = .next (s.setCli (assemblerDiscard s.cli)) := live_running h

theorem exec_interByteTimerExpiry : exec .interByteTimerExpiry s = .next (s.setCli (interByteExpiry s.cli)) :=
  live_running h

theorem exec_replyFrameSent : exec .replyFrameSent s = .next (s.setCli (replySent s.cli)) := live_running h

theorem exec_relayFrameSent : exec .relayFrameSent s = .next (s.setCli (relaySent s.cli)) := live_running h

end

/-! ### The assembler -/

section
variable {c : Cli} {f : Frame}

/-- A frame that fails its test raises the check-error count, which stays at 255 (R9). -/
theorem frameComplete_of_bad (sum : sumBytes f % 256 ≠ 0) :
    frameComplete c f = { c with checkErrors := if c.checkErrors < 255 then c.checkErrors + 1 else 255 } := by
  have count : min 255 (c.checkErrors + 1) = if c.checkErrors < 255 then c.checkErrors + 1 else 255 := by
    split <;> omega
  rw [frameComplete, if_neg sum, count]

/-- A good frame joins the inbound queue, with CMD_HOLD asserted at the sixth (R10, R11). -/
theorem frameComplete_of_room (sum : sumBytes f % 256 = 0) (room : c.inbound.length < 8) :
    frameComplete c f = { c with inbound := c.inbound ++ [f], hold := c.hold || c.inbound.length = 5 } := by
  simp [frameComplete, inboundJoin, sum, room]

/-- A good frame that finds 8 waiting is dropped (R10). -/
theorem frameComplete_of_full (sum : sumBytes f % 256 = 0) (full : ¬c.inbound.length < 8) :
    frameComplete c f = { c with frameDropped := true } := by
  rw [frameComplete, if_pos sum, inboundJoin, if_neg full]

end

section
variable {a : Assembly} {b : Byte}

/-- A Length above 16 discards the frame. -/
theorem assemblerAppend_of_long (c : Cli) (long : a.bytes.length = 2 ∧ 16 < b.toNat) :
    assemblerAppend c a b = { c with assembler := none, interByte := none, truncated := true } :=
  if_pos (by simpa using long)

/-- A frame that has reached its size is tested. -/
theorem assemblerAppend_of_done (c : Cli) (long : ¬(a.bytes.length = 2 ∧ 16 < b.toNat))
    (done : assemblyTotal a b = some (a.bytes ++ [b]).length) :
    assemblerAppend c a b = frameComplete (assemblerIdle c) (a.bytes ++ [b]) :=
  (if_neg (by simpa using long)).trans (if_pos done)

/-- A frame that has not reached its size goes on being collected. -/
theorem assemblerAppend_of_more (c : Cli) (long : ¬(a.bytes.length = 2 ∧ 16 < b.toNat))
    (more : assemblyTotal a b ≠ some (a.bytes ++ [b]).length) :
    assemblerAppend c a b =
      { c with assembler := some { bytes := a.bytes ++ [b], total := assemblyTotal a b }
               interByte := some interByteTime } :=
  (if_neg (by simpa using long)).trans (if_neg more)

end

/-- Settles O4, by the assembler's state and the marker; a frame that a byte completes is tested by `frameComplete`. -/
theorem characterFollowsTheTable : Obligations.CharacterFollowsTheTable := by
  unfold Obligations.CharacterFollowsTheTable
  intro s b marker hr
  refine ⟨_, exec_characterReceived hr b marker, sameBut_setCli s _, ?_⟩
  cases ha : s.cli.assembler <;> cases marker <;> simp only [setCli_cli, characterTaken, ha]
  case none.true | some.true => rfl
  case some.false a =>
    by_cases long : a.bytes.length = 2 ∧ 16 < b.toNat
    · rw [assemblerAppend_of_long s.cli long, if_pos long]
    · have total : (if a.bytes.length = 2 then some (4 + b.toNat) else a.total) = assemblyTotal a b := rfl
      rw [if_neg long, total]
      split
      case isTrue more => exact assemblerAppend_of_more s.cli long more
      case isFalse done =>
        rw [assemblerAppend_of_done s.cli long (not_not.mp done)]
        split
        case isTrue bad => exact frameComplete_of_bad bad
        case isFalse sum =>
          split
          case isTrue room => exact frameComplete_of_room (not_not.mp sum) room
          case isFalse full => exact frameComplete_of_full (not_not.mp sum) full

/-- An IDLE assembler has nothing to discard. -/
theorem assemblerDiscard_eq (c : Cli) :
    assemblerDiscard c =
      if c.assembler = none then c else { c with assembler := none, interByte := none, truncated := true } := by
  cases ha : c.assembler <;> simp [assemblerDiscard, assemblerIdle, ha]

/-- Settles O5. -/
theorem partialFrameIsDiscarded : Obligations.PartialFrameIsDiscarded := by
  unfold Obligations.PartialFrameIsDiscarded
  intro s hr
  refine ⟨_, _, exec_brokenCharacter hr, exec_interByteTimerExpiry hr, sameBut_setCli s _, sameBut_setCli s _, ?_, ?_⟩
  · exact assemblerDiscard_eq s.cli
  · cases ht : s.cli.interByte with
    | none => simp [interByteExpiry, ht]
    | some n => simpa [interByteExpiry, ht] using assemblerDiscard_eq s.cli

/-! ### The senders -/

/-- Settles O6. -/
theorem sendersAndTheirQueues : Obligations.SendersAndTheirQueues := by
  unfold Obligations.SendersAndTheirQueues
  refine ⟨fun s hr => ?_, fun c f => ?_, fun c f room => ?_, fun c f g₁ g₂ g₃ g₄ four => ?_⟩
  · exact ⟨_, _, exec_replyFrameSent hr, exec_relayFrameSent hr, sameBut_setCli s _, sameBut_setCli s _, rfl, rfl⟩
  · simp only [replyOffer, replyRoom, decide_eq_true_eq]
  · simp only [relayPlace, if_pos room]
  · have full : ¬c.relays.length < 4 := by simp [four]
    rw [relayPlace, if_neg full, four]
    cases c.relaySending <;> rfl

end Sys2Proof.Laws
end

section
/-!
PROOFS. A frame on its way: its levels on a line (R1), its arrival character by character (R6 to R10), and the layout of the
frames that the part makes (R2, R3).
-/
namespace Sys2Proof.Laws

open Sys2Proof.Machine

/-! ### Characters and their levels (R1, R8) -/

/-- Bit `n` of the number that the bits spell is bit `n` of the list. -/
theorem testBit_foldr_bits (bits : List Bool) (n : Nat) :
    (bits.foldr (fun (b : Bool) (n : Nat) => 2 * n + b.toNat) 0).testBit n = bits.getD n false := by
  induction bits generalizing n with
  | nil => simp
  | cons b bits ih =>
    rw [List.foldr_cons, ← Nat.bit_val]
    cases n with
    | zero => simp
    | succ n => simp only [Nat.testBit_bit_succ, ih, List.getD_cons_succ]

theorem byteOfBits_getLsbD (bits : List Bool) {n : Nat} (hn : n < 8) :
    (byteOfBits bits).getLsbD n = bits.getD n false := by
  rw [byteOfBits, BitVec.getLsbD_ofNat, testBit_foldr_bits, decide_eq_true hn, Bool.true_and]

theorem characterLevels_eq (marker : Bool) (b : Byte) :
    characterLevels marker b =
      [!stopLevel, b.getLsbD 0, b.getLsbD 1, b.getLsbD 2, b.getLsbD 3, b.getLsbD 4, b.getLsbD 5, b.getLsbD 6,
        b.getLsbD 7, marker, stopLevel] := rfl

/-- The eight data bits of a character spell its byte. -/
theorem byteOfBits_dataBits (b : Byte) :
    byteOfBits [b.getLsbD 0, b.getLsbD 1, b.getLsbD 2, b.getLsbD 3, b.getLsbD 4, b.getLsbD 5, b.getLsbD 6,
      b.getLsbD 7] = b := by
  refine BitVec.eq_of_getLsbD_eq fun n hn => ?_
  rw [byteOfBits_getLsbD _ hn]
  interval_cases n <;> rfl

/-- A character is heard as it is sent. -/
theorem characterHeard_characterLevels (marker : Bool) (b : Byte) :
    characterHeard (characterLevels marker b) = some (.characterReceived b marker) := by
  rw [characterLevels_eq]
  exact congrArg (fun x => some (Instr.characterReceived x marker)) (byteOfBits_dataBits b)

/-! ### The arrival of a good frame (R6, R9, R10) -/

/-- The characters taken one after another. -/
def charactersTaken (c : Cli) (cs : List (Bool × Byte)) : Cli := cs.foldl (fun c x => characterTaken c x.2 x.1) c

theorem frameArrival_eq (f : Frame) :
    frameArrival f = (frameCharacters f).map (fun x => Instr.characterReceived x.2 x.1) := by
  simp only [frameArrival, characterHeard_characterLevels]
  rw [List.filterMap_eq_map']

theorem execAll_characters (cs : List (Bool × Byte)) {s : State} (hr : running s = true) :
    execAll (cs.map (fun x => Instr.characterReceived x.2 x.1)) s = .next (s.setCli (charactersTaken s.cli cs)) := by
  induction cs generalizing s with
  | nil => rfl
  | cons x cs ih =>
    rw [List.map_cons, execAll, exec_characterReceived hr]
    exact ih (s := s.setCli (characterTaken s.cli x.2 x.1)) hr

/-- The assembler when it has received the bytes `p`: their number tells whether the Length is among them. -/
def assemblyOf (p : List Byte) : Assembly :=
  { bytes := p, total := if p.length ≤ 2 then none else some (4 + frameLength p) }

/-- CLI while it collects a frame of which the bytes `p` have come. -/
def collectingWith (c : Cli) (p : List Byte) : Cli :=
  { c with assembler := some (assemblyOf p), interByte := some interByteTime }

/-- The first byte of a frame, which bears the marker, begins it; a frame it interrupts is truncated. -/
theorem characterTaken_marked (c : Cli) (b : Byte) :
    characterTaken c b true = collectingWith { c with truncated := c.truncated || c.assembler.isSome } [b] := by
  cases ha : c.assembler <;> simp [characterTaken, ha, collectingWith, assemblyOf, assemblerStart]

theorem characterTaken_collecting (c : Cli) (p : List Byte) (b : Byte) :
    characterTaken (collectingWith c p) b false = assemblerAppend (collectingWith c p) (assemblyOf p) b := rfl

theorem assemblyTotal_assemblyOf (p : List Byte) (b : Byte) :
    assemblyTotal (assemblyOf p) b = (assemblyOf (p ++ [b])).total := by
  have now : assemblyTotal (assemblyOf p) b =
      if p.length = 2 then some (4 + b.toNat) else if p.length ≤ 2 then none else some (4 + frameLength p) := rfl
  have next : (assemblyOf (p ++ [b])).total =
      if (p ++ [b]).length ≤ 2 then none else some (4 + frameLength (p ++ [b])) := rfl
  rw [now, next, List.length_append, List.length_singleton]
  rcases Nat.lt_trichotomy p.length 2 with early | second | later
  · rw [if_neg early.ne, if_pos early.le, if_pos (by omega)]
  · rw [if_pos second, if_neg (by omega), frameLength_concat second]
  · rw [if_neg later.ne', if_neg later.not_ge, if_neg (by omega), frameLength_append later]

section
variable {p rest : List Byte} {b : Byte} (good : goodFrame (p ++ b :: rest))
include good

/-- The Length of a good frame, when it arrives, is not above 16. -/
theorem not_long_of_goodFrame : ¬((assemblyOf p).bytes.length = 2 ∧ 16 < b.toNat) := by
  rintro ⟨(second : p.length = 2), long⟩
  have split : p ++ b :: rest = (p ++ [b]) ++ rest := by simp
  obtain ⟨short, -, -⟩ := good
  have three : 3 ≤ (p ++ [b]).length := by
    rw [List.length_append, List.length_singleton]
    exact Nat.succ_le_succ second.ge
  rw [split, frameLength_append three, frameLength_concat second] at short
  omega

/-- The size that the assembler knows is reached with the last byte of a good frame, and not before. -/
theorem assemblyTotal_goodFrame :
    assemblyTotal (assemblyOf p) b = some (p ++ [b]).length ↔ rest = [] := by
  have split : p ++ b :: rest = (p ++ [b]) ++ rest := by simp
  obtain ⟨-, size, -⟩ := good
  rw [split, List.length_append] at size
  rw [assemblyTotal_assemblyOf, ← List.length_eq_zero_iff]
  by_cases early : (p ++ [b]).length ≤ 2
  · simp only [assemblyOf, if_pos early]
    constructor
    · exact fun none => by cases none
    · omega
  · simp only [assemblyOf, if_neg early, Option.some_inj]
    rw [frameLength_append (by omega)] at size
    omega

end

/-- The rest of a good frame, its bytes without the marker, completes it. -/
theorem charactersTaken_rest (c : Cli) (rest : List Byte) (p : List Byte) (b : Byte)
    (good : goodFrame (p ++ b :: rest)) :
    charactersTaken (collectingWith c p) ((b :: rest).map (fun x => (false, x))) =
      frameComplete (assemblerIdle c) (p ++ b :: rest) := by
  have short := not_long_of_goodFrame good
  have size := assemblyTotal_goodFrame good
  rw [List.map_cons, charactersTaken, List.foldl_cons, characterTaken_collecting]
  cases rest with
  | nil => exact assemblerAppend_of_done _ short (size.mpr rfl)
  | cons b' rest =>
    have more := fun done => List.cons_ne_nil b' rest (size.mp done)
    have next := charactersTaken_rest c rest (p ++ [b]) b' (by rwa [← List.append_cons])
    rw [assemblerAppend_of_more _ short more, assemblyTotal_assemblyOf, List.append_cons p b (b' :: rest)]
    exact next

/-- A good frame that arrives whole leaves itself at the tail of the inbound queue. -/
theorem charactersTaken_goodFrame (c : Cli) {f : Frame} (good : goodFrame f) (room : c.inbound.length < 8) :
    charactersTaken c (frameCharacters f) =
      { c with assembler := none, interByte := none, inbound := c.inbound ++ [f],
               hold := c.hold || c.inbound.length = 5, truncated := c.truncated || c.assembler.isSome } := by
  have ⟨_, size, sum⟩ := good
  match f, good, size, sum with
  | lead :: b :: rest, good, _, sum =>
    rw [frameCharacters, charactersTaken, List.foldl_cons, characterTaken_marked]
    exact (charactersTaken_rest _ rest [lead] b good).trans (frameComplete_of_room sum room)
  | [], _, size, _ | [_], _, size, _ =>
    simp at size
    omega

/-! ### The frames that the part makes (R2, R3) -/

theorem toByte_toNat (n : Nat) : (toByte n).toNat = n % 256 := BitVec.toNat_ofNat n 8

theorem sumBytes_append (a b : List Byte) : sumBytes (a ++ b) = sumBytes a + sumBytes b := by
  induction a with
  | nil => simp [sumBytes]
  | cons x a ih => simp [sumBytes, ih, Nat.add_assoc]

/-- The Check brings the sum to 0 (R3). -/
theorem sumBytes_checkByte (b : List Byte) : sumBytes (b ++ [checkByte b]) % 256 = 0 := by
  rw [sumBytes_append]
  simp only [sumBytes, checkByte, toByte_toNat]
  omega

section
variable {kind address : Nat} {payload : List Byte}

theorem frameLength_makeFrame (hp : payload.length ≤ 16) :
    frameLength (makeFrame kind address payload) = payload.length := by
  simp only [frameLength, byteAt, makeFrame, List.cons_append, List.getD_cons_succ, List.getD_cons_zero, toByte_toNat]
  omega

theorem goodFrame_makeFrame (hp : payload.length ≤ 16) : goodFrame (makeFrame kind address payload) := by
  refine ⟨?_, ?_, sumBytes_checkByte _⟩ <;> rw [frameLength_makeFrame hp]
  · exact hp
  · simp only [makeFrame, List.length_append, List.length_cons, List.length_nil]
    omega

theorem frameKind_makeFrame (hk : kind < 16) (ha : address < 4096) :
    frameKind (makeFrame kind address payload) = kind := by
  simp only [frameKind, fieldAt, byteAt, makeFrame, List.cons_append, List.getD_cons_zero, toByte_toNat]
  omega

theorem frameAddress_makeFrame (ha : address < 4096) :
    frameAddress (makeFrame kind address payload) = address := by
  simp only [frameAddress, fieldAt, byteAt, makeFrame, List.cons_append, List.getD_cons_zero, List.getD_cons_succ,
    toByte_toNat]
  omega

theorem framePayload_makeFrame (hp : payload.length ≤ 16) :
    framePayload (makeFrame kind address payload) = payload := by
  rw [framePayload, frameLength_makeFrame hp]
  simp [slice, makeFrame]

end

/-! ### The levels of a frame (R1) -/

/-- Pieces of one length put one after another are found again at its multiples. -/
theorem take_drop_flatMap {α β : Type} {g : α → List β} {k : Nat} (hg : ∀ x, (g x).length = k) {l : List α} {n : Nat}
    {x : α} (hn : l[n]? = some x) : ((l.flatMap g).drop (k * n)).take k = g x := by
  induction l generalizing n with
  | nil => simp at hn
  | cons y l ih =>
    rw [List.flatMap_cons]
    cases n with
    | zero =>
      obtain rfl : y = x := by simpa using hn
      simp [← hg y]
    | succ n =>
      have skip : k * (n + 1) = (g y).length + k * n := by rw [hg]; ring
      rw [skip, ← List.drop_drop, List.drop_left]
      exact ih (by simpa using hn)

theorem frameCharacters_getElem? (f : Frame) (n : Nat) :
    (frameCharacters f)[n]? = f[n]?.map (fun b => (decide (n = 0), b)) := by
  cases f <;> cases n <;> simp [frameCharacters]

theorem characterLevels_length (marker : Bool) (b : Byte) : (characterLevels marker b).length = 11 := rfl

theorem frameLevels_length (f : Frame) : (frameLevels f).length = 11 * f.length := by
  have chars : (frameCharacters f).length = f.length := by cases f <;> simp [frameCharacters]
  simp [frameLevels, List.length_flatMap, characterLevels_length, chars, Nat.mul_comm]

/-- The levels of the n-th character stand at its place among those of the frame. -/
theorem frameLevels_slice {f : Frame} {n : Nat} {marker : Bool} {b : Byte}
    (h : (frameCharacters f)[n]? = some (marker, b)) :
    ((frameLevels f).drop (11 * n)).take 11 = characterLevels marker b :=
  take_drop_flatMap (fun x : Bool × Byte => characterLevels_length x.1 x.2) h

/-- Settles O7, each of its parts by the lemmas above on it. -/
theorem frameSentWholeIsReceived : Obligations.FrameSentWholeIsReceived := by
  unfold Obligations.FrameSentWholeIsReceived
  refine ⟨fun s f hr good room => ?_, fun kind address payload hk ha hp => ?_, fun marker b => ?_, fun f => ?_⟩
  · rw [frameArrival_eq, execAll_characters _ hr]
    exact ⟨_, rfl, sameBut_setCli s _, charactersTaken_goodFrame s.cli good room⟩
  · exact ⟨goodFrame_makeFrame hp, frameKind_makeFrame hk ha, frameAddress_makeFrame ha, framePayload_makeFrame hp⟩
  · refine ⟨rfl, rfl, fun n hn => ?_, rfl, rfl, characterHeard_characterLevels marker b, rfl⟩
    interval_cases n <;> rfl
  · refine ⟨frameLevels_length f, fun n hn => ?_⟩
    have char : (frameCharacters f)[n]? = some (decide (n = 0), f.getD n 0) := by
      simp [frameCharacters_getElem?, List.getElem?_eq_getElem hn, List.getD_eq_getElem?_getD]
    exact frameLevels_slice char

end Sys2Proof.Laws
end

section
/-!
PROOFS. The dispatch of a head frame (R20 to R24): what becomes of one that is discarded, which are handed on, and the answer
to a STATUS_REQ (R34 to R36).
-/
namespace Sys2Proof.Laws

open Sys2Proof.Machine

/-! ### The frame commands -/

/-- Every frame command is the dispatch of its row, with or without FNU taking what is published after it. -/
theorem exec_of_frameRow {i : Instr} {row : Frame → Bool} (h : frameRow i = some row) :
    ∃ hand, (∀ s, exec i s = live (dispatch row hand) s) ∨ ∀ s, exec i s = settled (dispatch row hand) s := by
  cases i
  case replyFrameTaken | statusReq | cfgOpen | cfgPoint | cfgWrite | cfgRead | cfgClose | sampleErase | sampleWrite
      | resetNormal | resetFactory =>
    cases h
    exact ⟨_, .inl fun _ => rfl⟩
  case drive | haltNormal | haltEmergency | func | cfgCommit =>
    cases h
    exact ⟨_, .inr fun _ => rfl⟩
  all_goals cases h

section
variable {i : Instr} {row : Frame → Bool} {s : State} {f : Frame} {rest : List Frame}

/-- A frame command whose head frame nobody takes only takes it. -/
theorem exec_discarded (hrow : frameRow i = some row) (head : HeadFrame s f rest) (hf : row f = true)
    (hv : handedVia s f = none) (idle : s.fnu.waiting = []) : exec i s = .next (frameTaken s f rest) := by
  obtain ⟨hr, hin⟩ := head
  obtain ⟨hand, acts | acts⟩ := exec_of_frameRow hrow
  · rw [acts, live_running hr, dispatch_discarded hin hf hv]
  · obtain ⟨same, -, -⟩ := frameTaken_spec s f rest
    have fnu : (frameTaken s f rest).fnu = s.fnu := same .fnu (by simp)
    rw [acts, settled_running hr, dispatch_discarded hin hf hv, fnuSettle_of_nil (by rw [fnu, idle])]

end

/-- A frame of a reply Kind, and a malformed one, is handed to nobody. -/
theorem handedVia_of_discarded {s : State} {f : Frame} (h : 13 ≤ frameKind f ∨ frameWellFormed f = false) :
    handedVia s f = none := by
  rcases h with reply | malformed
  · simp [handedVia, isReplyFrame, reply]
  · simp [handedVia, malformed]

/-- Settles O9. -/
theorem discardedFrameIsOnlyRelayed : Obligations.DiscardedFrameIsOnlyRelayed := by
  unfold Obligations.DiscardedFrameIsOnlyRelayed
  refine ⟨fun i row s f rest hrow head hf hv idle => ?_, fun s f rest head reply => ?_, fun c rest => ?_⟩
  · exact ⟨_, exec_discarded hrow head hf hv idle, frameTaken_spec s f rest⟩
  · obtain ⟨hr, hin⟩ := head
    have row : isReplyFrame f = true := decide_eq_true reply
    have taken := dispatch_discarded (hand := fun s _ _ => s) hin row (handedVia_of_discarded (.inl reply))
    exact ⟨_, (live_running hr).trans (congrArg _ taken), frameTaken_spec s f rest⟩
  · by_cases three : rest.length = 3 <;> simp [inboundTake, three]

/-! ### Well-formed frames (R4) -/

theorem frameKind_lt (f : Frame) : frameKind f < 16 := Nat.mod_lt _ (by decide)

/-- Table 1-1, kind by kind. -/
theorem frameWellFormed_iff (f : Frame) :
    let n := frameLength f
    let p := framePayload f
    frameWellFormed f = true ↔
      (frameKind f = 0 ∧ n = 2 ∧ byteAt p 0 ≤ 1) ∨ (frameKind f = 1 ∧ n = 1 ∧ byteAt p 0 ≤ 1) ∨
        (frameKind f = 2 ∧ n = 2 ∧ byteAt p 0 ≤ 7) ∨ (frameKind f = 3 ∧ n = 0) ∨ (frameKind f = 4 ∧ n = 1) ∨
        (frameKind f = 5 ∧ 1 ≤ n ∧ n ≤ 16) ∨ (frameKind f = 6 ∧ n = 2) ∨
        (frameKind f = 7 ∧ n = 4 ∧ 1 ≤ byteAt p 3 ∧ byteAt p 3 ≤ 13) ∨ (frameKind f = 8 ∧ n = 0) ∨
        (frameKind f = 9 ∧ n = 0) ∨ (frameKind f = 10 ∧ n = 2) ∨ (frameKind f = 11 ∧ 4 ≤ n ∧ n ≤ 16) ∨
        (frameKind f = 12 ∧ n = 3 ∧ byteAt p 2 ≤ 1) := by
  intro n p
  have kind := frameKind_lt f
  simp only [frameWellFormed, Bool.and_eq_true]
  interval_cases frameKind f <;> simp [lengthFits, payloadFits, n, p]

/-! ### Acceptance and permission (R22 to R24) -/

/-- The kinds permitted through an entry that can accept (R24). -/
theorem entryPermits_iff {f : Frame} (kind : frameKind f ≤ 12) (e : EntryKind) :
    entryPermits e (frameKind f) = true ↔
      e = .primary ∨ e = .consist ∧ frameKind f ≤ 2 ∨ e = .group ∧ (frameKind f = 1 ∨ frameKind f = 2) := by
  cases e <;> simp [entryPermits, kind]

section
variable {s : State} {f : Frame} (kind : frameKind f ≤ 12) (formed : frameWellFormed f = true)
include kind formed

/-- A well-formed frame of Kind 0 to 12 is handed on if it is accepted and permitted. -/
theorem handedVia_eq_some_iff (via : Via) :
    handedVia s f = some via ↔ acceptance s f = some via ∧ permitted s f via = true := by
  have request : isReplyFrame f = false := decide_eq_false (by omega)
  simp only [handedVia, request, formed, Bool.not_true, Bool.or_self, Bool.false_eq_true, if_false]
  cases acceptance s f with
  | none => simp
  | some v =>
    by_cases hp : permitted s f v = true
    · simp only [hp, if_true, Option.some_inj]
      exact ⟨fun h => ⟨h, h ▸ hp⟩, fun h => h.1⟩
    · simp only [hp, Option.some_inj]
      exact ⟨fun h => by simp at h, fun h => absurd (h.1 ▸ h.2) hp⟩

/-- A frame with Address 0 is handed on as a broadcast or not at all (R22). -/
theorem handedVia_broadcast (address : frameAddress f = 0) :
    handedVia s f =
      if frameKind f = 1 ∨ frameKind f = 0 ∧ byteAt (framePayload f) 1 = 0 then some .broadcast else none := by
  have accepted : acceptance s f = if frameKind f = 1 ∨ frameKind f = 0 ∧ byteAt (framePayload f) 1 = 0
      then some .broadcast else none := by
    simp [acceptance, address, broadcastAccepted]
  ext via
  rw [handedVia_eq_some_iff kind formed, accepted]
  split
  · simp only [Option.some_inj]
    exact ⟨fun h => h.1, fun h => ⟨h, by rw [← h]; rfl⟩⟩
  · simp

/-- A frame with another Address is handed on through the first entry that agrees with it, if that entry permits it
(R23, R24). -/
theorem handedVia_entry_iff (address : frameAddress f ≠ 0) (k : Nat) :
    handedVia s f = some (.entry k) ↔
      k < 8 ∧ entryAgrees (s.entry k) f ∧ (∀ j, j < k → ¬entryAgrees (s.entry j) f) ∧
        ((s.entry k).kind = .primary ∨ (s.entry k).kind = .consist ∧ frameKind f ≤ 2 ∨
          (s.entry k).kind = .group ∧ (frameKind f = 1 ∨ frameKind f = 2)) := by
  have accepted : acceptance s f = some (.entry k) ↔
      k < 8 ∧ entryAgrees (s.entry k) f ∧ ∀ j, j < k → ¬entryAgrees (s.entry j) f := by
    have disagrees (j : Nat) : (!entryMatches (s.entry j) (frameAddress f)) = true ↔ ¬entryAgrees (s.entry j) f := by
      rw [← entryMatches_iff, Bool.not_eq_true', Bool.not_eq_true]
    simp only [acceptance, if_neg address, Option.map_eq_some_iff, Via.entry.injEq, exists_eq_right,
      List.find?_range_eq_some, List.mem_range, entryMatches_iff, disagrees]
    tauto
  rw [handedVia_eq_some_iff kind formed, accepted, permitted, entryPermits_iff kind]
  tauto

theorem handedVia_ne_broadcast (address : frameAddress f ≠ 0) : handedVia s f ≠ some .broadcast := by
  rw [ne_eq, handedVia_eq_some_iff kind formed]
  simp [acceptance, address]

end

/-- Settles O10. -/
theorem framesAreHandedOnByTheFirstMatch : Obligations.FramesAreHandedOnByTheFirstMatch := by
  unfold Obligations.FramesAreHandedOnByTheFirstMatch
  refine ⟨frameWellFormed_iff, fun s f => ⟨handedVia_of_discarded, ?_, ?_⟩⟩
  · exact handedVia_broadcast
  · exact fun kind formed address =>
      ⟨handedVia_ne_broadcast kind formed address, handedVia_entry_iff kind formed address⟩

/-! ### STATUS_REQ (R34 to R36) -/

/-- The taking of a frame leaves the tables alone. -/
theorem primaryAddress_frameTaken (s : State) (f : Frame) (rest : List Frame) :
    (frameTaken s f rest).primaryAddress = s.primaryAddress := by
  obtain ⟨same, -, -⟩ := frameTaken_spec s f rest
  have tbs : (frameTaken s f rest).tbs = s.tbs := same .tbs (by simp)
  simp only [State.primaryAddress, State.entry, tbs]

/-- With room for the reply, a STATUS_REQ clears the flags that it reports, and touches nothing else. -/
theorem handStatus_of_room {s : State} (f : Frame) (via : Via) (room : s.cli.replies.length < 4) :
    (handStatus s f via).cli =
        { s.cli with replies := s.cli.replies ++ [makeFrame 14 s.primaryAddress (statusRecord s)]
                     replySending := true, truncated := false, frameDropped := false, replyDropped := false
                     relayDisplaced := false, checkErrors := 0 } ∧
      (handStatus s f via).snd = { s.snd with underrun := false } ∧
      (handStatus s f via).smk = { s.smk with dry := false } ∧
      (handStatus s f via).mbr = { s.mbr with lockoutShort := false } ∧
      SameBut [.cli, .snd, .smk, .mbr] s (handStatus s f via) := by
  have free : replyRoom s.cli = true := decide_eq_true room
  have eq : handStatus s f via =
      let t := offerReply s (makeFrame 14 s.primaryAddress (statusRecord s))
      clearFaultFlags (t.setCli (clearLinkFlags t.cli)) := if_pos free
  rw [eq]
  refine ⟨?_, rfl, rfl, rfl, fun p hp => ?_⟩
  · simp [offerReply, replyOffer, free, clearLinkFlags]
  · cases p with
    | cli | snd | smk | mbr => simp at hp
    | _ => rfl

/-- Without room, it sets REPLY_DROPPED alone. -/
theorem handStatus_of_full {s : State} (f : Frame) (via : Via) (full : 4 ≤ s.cli.replies.length) :
    handStatus s f via = s.setCli { s.cli with replyDropped := true } := by
  have none : replyRoom s.cli = false := decide_eq_false full.not_gt
  simp [handStatus, offerReply, replyOffer, none]

/-- Settles O18. -/
theorem statusIsAnswered : Obligations.StatusIsAnswered := by
  unfold Obligations.StatusIsAnswered
  rintro s f rest via ⟨⟨hr, hin⟩, hv⟩ kind s0
  obtain ⟨taken, -, -⟩ := frameTaken_spec s f rest
  have acts : exec .statusReq s = .next (handStatus s0 f via) :=
    (live_running hr).trans (congrArg _ (dispatch_handed hin (decide_eq_true kind) hv))
  refine ⟨_, acts, fun room => ?_, fun full => ?_⟩
  · obtain ⟨cli, snd, smk, mbr, same⟩ := handStatus_of_room f via room
    have address : s0.primaryAddress = s.primaryAddress := primaryAddress_frameTaken s f rest
    have sndKept : s0.snd = s.snd := taken .snd (by simp)
    have smkKept : s0.smk = s.smk := taken .smk (by simp)
    have mbrKept : s0.mbr = s.mbr := taken .mbr (by simp)
    rw [address] at cli
    rw [sndKept] at snd
    rw [smkKept] at smk
    rw [mbrKept] at mbr
    exact ⟨cli, snd, smk, mbr, sameBut_trans (sameBut_mono taken (by simp)) same⟩
  · rw [handStatus_of_full f via full]
    exact ⟨rfl, sameBut_trans taken (sameBut_setCli s0 _)⟩

end Sys2Proof.Laws
end

section
/-!
PROOFS. The laws right after reset (R17, R37, R55, R69, R100, R116, R132, R144, R166, R174, R181, R192). The state there is one
closed value, so a law about its registers is decided by evaluation; the laws of the tables read the default images.
-/
namespace Sys2Proof.Laws

open Sys2Proof.Machine

theorem byteAt_replicate_zero (n i : Nat) : byteAt (List.replicate n 0) i = 0 := by
  rw [byteAt, List.getD_eq_getElem?_getD, List.getElem?_getD_replicate_default_eq]
  rfl

/-- Every default cue is empty, and an empty cue breaks no condition of R49. -/
theorem contentValid_defaultCues : contentValid .cues defaultCues = true := by
  have empty (k : Nat) : (cueRecordAt defaultCues k).length = 0 := by
    simp only [cueRecordAt, word24At, word16At, defaultCues, byteAt_replicate_zero]
  have sound (k : Nat) : cueBreaks (cueRecordAt defaultCues k) = false := by simp [cueBreaks, empty]
  simp [contentValid, commitOffence, cuesOffence, sound]

/-- The default tables have their sizes and satisfy their validation rules. -/
theorem activeSafe_reset : ActiveSafe .reset := by
  intro t _
  cases t
  case cues => exact ⟨List.length_replicate, contentValid_defaultCues⟩
  case settings | address | speed | map | lamps => decide +kernel

theorem tableLaws_reset : ActiveSafe .reset ∧ StoreSafe .reset ∧ EditSafe .reset :=
  ⟨activeSafe_reset, by decide +kernel, List.length_replicate, le_refl 0, fun _ => rfl, fun _ => rfl⟩

theorem tractionLaws_reset :
    LatchSafe .reset ∧ DutySafe .reset ∧ RangeSafe .reset ∧ DemandSafe .reset ∧ BridgeSafe .reset ∧ GapSafe .reset ∧
      AppliedSafe .reset ∧ SenseSafe .reset :=
  ⟨by decide, by decide, by decide, by decide, by decide, by decide, by decide, by decide⟩

/-- The converter is IDLE with nothing pending, and the slot is EMPTY (R132). -/
theorem sequencerSafe_reset : SequencerSafe .reset :=
  ⟨by decide, by decide, by decide, rfl, by decide, nofun, nofun, trivial, by decide⟩

/-- The sensor is UNQUALIFIED (R144). -/
theorem camSafe_reset : CamSafe .reset := ⟨by decide, by decide, nofun, by decide, nofun⟩

theorem outputLaws_reset :
    PoolSafe .reset ∧ EngineSafe .reset ∧ SampleSafe .reset ∧ HeaterSafe .reset ∧ CapsSafe .reset ∧ SmokeSafe .reset ∧
      LampSafe .reset :=
  ⟨by decide, by decide, ⟨rfl, trivial⟩, by decide, by decide, by decide, by decide⟩

/-- No entry of the default map is active with every function off and every condition clear, and nothing is delivered. -/
theorem functionLaws_reset : MapSafe .reset ∧ DeliveredSafe .reset ∧ CopiesSafe .reset :=
  ⟨by decide +kernel, by decide, by decide⟩

/-- With no voltage neither supply is present under the default settings (R182). -/
theorem supplySafe_reset : SupplySafe .reset := by
  intro x
  cases x <;> decide +kernel

/-- Settles O60, block by block. -/
theorem everyLawHoldsAtReset : Obligations.EveryLawHoldsAtReset := by
  unfold Obligations.EveryLawHoldsAtReset
  obtain ⟨active, store, edit⟩ := tableLaws_reset
  obtain ⟨latch, duty, range, demand, bridge, gap, applied, sense⟩ := tractionLaws_reset
  obtain ⟨pool, engine, sample, heater, caps, smoke, lamp⟩ := outputLaws_reset
  obtain ⟨map, delivered, copies⟩ := functionLaws_reset
  have link : LinkSafe .reset := (linkSafe_iff _).mpr linkSound_cliReset
  have frames : FramesSafe .reset := (framesSafe_iff _).mpr framesSound_cliReset
  have bemf : BemfSafe .reset := nofun
  have power : PowerSafe .reset := by decide
  have held : ResetSafe .reset := fun phase => absurd rfl phase
  exact ⟨link, frames, active, store, edit, latch, duty, range, demand, bridge, gap, applied, sequencerSafe_reset, bemf,
    camSafe_reset, pool, engine, sample, sense, heater, caps, smoke, lamp, map, delivered, copies, power,
    supplySafe_reset, held⟩

end Sys2Proof.Laws
end

section
/-!
SUPPORT. One lemma an operation: the states of F0 to F63, which only FUNC and the resets change (R56, R69), and the phase, which
only the resets change (R191), where an operation reaches FNU or PPM at all. Each conjunct is a rewriting rule of `simp`.
-/
namespace Sys2Proof.Laws

open Sys2Proof.Machine

/-! ### Publications, smoke, traction and the bridge -/

@[simp] theorem publish_functions (s : State) (p : Publication) :
    (publish s p).fnu.functions = s.fnu.functions := by
  simp only [publish]
  simp

@[simp] theorem smokeEnd_functions (before : SmokeState) (s : State) :
    (smokeEnd before s).fnu.functions = s.fnu.functions := by
  simp only [smokeEnd]
  (repeat' split) <;> simp

@[simp] theorem smokeEnableOn_functions (s : State) :
    (smokeEnableOn s).fnu.functions = s.fnu.functions := by
  simp only [smokeEnableOn]
  (repeat' split) <;> simp

@[simp] theorem smokeEnableOff_functions (s : State) :
    (smokeEnableOff s).fnu.functions = s.fnu.functions := by
  simp only [smokeEnableOff]
  (repeat' split) <;> simp

@[simp] theorem smokeEnable_functions (s : State) (on : Bool) :
    (smokeEnable s on).fnu.functions = s.fnu.functions := by
  simp only [smokeEnable]
  (repeat' split) <;> simp

@[simp] theorem smokeResult_functions (s : State) (tm : Nat) :
    (smokeResult s tm).fnu.functions = s.fnu.functions := by
  simp only [smokeResult]
  (repeat' split) <;> simp

@[simp] theorem smokeCap_functions (s : State) (hmax : Nat) :
    (smokeCap s hmax).fnu.functions = s.fnu.functions := by
  simp only [smokeCap]
  simp

@[simp] theorem smokePower_functions (s : State) (p : PowerState) :
    (smokePower s p).fnu.functions = s.fnu.functions := by
  simp only [smokePower]
  simp

@[simp] theorem publishTraction_functions (before : Dir) (s : State) :
    (publishTraction before s).fnu.functions = s.fnu.functions := by
  simp only [publishTraction]
  (repeat' split) <;> simp

@[simp] theorem tractionEnd_functions (before : Trc) (tick work atOnce : Bool) (s : State) :
    (tractionEnd before tick work atOnce s).fnu.functions = s.fnu.functions := by
  simp only [tractionEnd]
  (repeat' split) <;> simp

@[simp] theorem retarget_functions (s : State) :
    (retarget s).fnu.functions = s.fnu.functions := by
  simp only [retarget]
  simp

@[simp] theorem tractionShunt_functions (s : State) (on : Bool) :
    (tractionShunt s on).fnu.functions = s.fnu.functions := by
  simp only [tractionShunt]
  simp

@[simp] theorem rampTick_functions (s : State) :
    (rampTick s).fnu.functions = s.fnu.functions := by
  simp only [rampTick]
  (repeat' split) <;> simp

@[simp] theorem driveArmed_functions (s : State) (step : Nat) (d : Dir) :
    (driveArmed s step d).fnu.functions = s.fnu.functions := by
  simp only [driveArmed]
  simp

@[simp] theorem rearm_functions (s : State) (d : Dir) :
    (rearm s d).fnu.functions = s.fnu.functions := by
  simp only [rearm]
  (repeat' split) <;> simp

@[simp] theorem driveCommand_functions (s : State) (step : Nat) (d : Dir) :
    (driveCommand s step d).fnu.functions = s.fnu.functions := by
  simp only [driveCommand]
  (repeat' split) <;> simp

@[simp] theorem emergencyHalt_functions (s : State) :
    (emergencyHalt s).fnu.functions = s.fnu.functions := by
  simp only [emergencyHalt]
  (repeat' split) <;> simp

@[simp] theorem statedInverted_functions (s : State) :
    (statedInverted s).fnu.functions = s.fnu.functions := by
  simp only [statedInverted]
  (repeat' split) <;> simp

@[simp] theorem lossNotice_functions (s : State) :
    (lossNotice s).fnu.functions = s.fnu.functions := by
  simp only [lossNotice]
  (repeat' split) <;> simp

@[simp] theorem tripNotice_functions (s : State) :
    (tripNotice s).fnu.functions = s.fnu.functions := by
  simp only [tripNotice]
  (repeat' split) <;> simp

@[simp] theorem retryNotice_functions (s : State) :
    (retryNotice s).fnu.functions = s.fnu.functions := by
  simp only [retryNotice]
  (repeat' split) <;> simp

@[simp] theorem lockoutNotice_functions (s : State) :
    (lockoutNotice s).fnu.functions = s.fnu.functions := by
  simp only [lockoutNotice]
  (repeat' split) <;> simp

@[simp] theorem stallExpiry_functions (s : State) :
    (stallExpiry s).fnu.functions = s.fnu.functions := by
  simp only [stallExpiry]
  (repeat' split) <;> simp

@[simp] theorem tractionPower_functions (s : State) (p : PowerState) :
    (tractionPower s p).fnu.functions = s.fnu.functions := by
  simp only [tractionPower]
  (repeat' split) <;> simp

@[simp] theorem tractionCap_functions (s : State) (dcap : Nat) :
    (tractionCap s dcap).fnu.functions = s.fnu.functions := by
  simp only [tractionCap]
  (repeat' split) <;> simp

@[simp] theorem bemfResult_functions (s : State) (raw : Nat) :
    (bemfResult s raw).fnu.functions = s.fnu.functions := by
  simp only [bemfResult]
  (repeat' split) <;> simp

@[simp] theorem judgeOverload_functions (s : State) :
    (judgeOverload s).fnu.functions = s.fnu.functions := by
  simp only [judgeOverload]
  (repeat' split) <;> simp

@[simp] theorem judgeShort_functions (s : State) :
    (judgeShort s).fnu.functions = s.fnu.functions := by
  simp only [judgeShort]
  simp

@[simp] theorem judgeTrip_functions (s : State) (code : Nat) :
    (judgeTrip s code).fnu.functions = s.fnu.functions := by
  simp only [judgeTrip]
  (repeat' split) <;> simp

@[simp] theorem tripMeasure_functions (s : State) :
    (tripMeasure s).fnu.functions = s.fnu.functions := by
  simp only [tripMeasure]
  (repeat' split) <;> simp

@[simp] theorem overcurrent_functions (s : State) (milliamps : Nat) :
    (overcurrent s milliamps).fnu.functions = s.fnu.functions := by
  simp only [overcurrent]
  (repeat' split) <;> simp

@[simp] theorem retryExpiry_functions (s : State) :
    (retryExpiry s).fnu.functions = s.fnu.functions := by
  simp only [retryExpiry]
  (repeat' split) <;> simp

/-! ### The function unit -/

@[simp] theorem setDelivered_functions (s : State) (o : Outputs) :
    (setDelivered s o).fnu.functions = s.fnu.functions := by
  simp only [setDelivered]
  simp

@[simp] theorem deliverLamp_functions (new : Outputs) (n : Nat) (s : State) :
    (deliverLamp new n s).fnu.functions = s.fnu.functions := by
  simp only [deliverLamp]
  (repeat' split) <;> simp

@[simp] theorem deliverSmoke_functions (new : Outputs) (s : State) :
    (deliverSmoke new s).fnu.functions = s.fnu.functions := by
  simp only [deliverSmoke]
  (repeat' split) <;> simp

@[simp] theorem deliverMute_functions (new : Outputs) (s : State) :
    (deliverMute new s).fnu.functions = s.fnu.functions := by
  simp only [deliverMute]
  (repeat' split) <;> simp

@[simp] theorem deliverShunt_functions (new : Outputs) (s : State) :
    (deliverShunt new s).fnu.functions = s.fnu.functions := by
  simp only [deliverShunt]
  (repeat' split) <;> simp

@[simp] theorem deliverMomentum_functions (new : Outputs) (s : State) :
    (deliverMomentum new s).fnu.functions = s.fnu.functions := by
  simp only [deliverMomentum]
  (repeat' split) <;> simp

@[simp] theorem deliverEntry_functions (new : Outputs) (e : MapEntry) (on : Bool) (s : State) :
    (deliverEntry new e on s).fnu.functions = s.fnu.functions := by
  simp only [deliverEntry]
  (repeat' split) <;> simp

@[simp] theorem keepActivity_functions (s : State) (a : List Bool) :
    (keepActivity s a).fnu.functions = s.fnu.functions := by
  simp only [keepActivity]
  simp

@[simp] theorem walk_functions (new : Outputs) (entries : List (MapEntry × Bool × Bool)) (s : State) :
    (walk new entries s).fnu.functions = s.fnu.functions := by
  induction entries generalizing s with
  | nil => rfl
  | cons x rest ih =>
    obtain ⟨e, old, now⟩ := x
    simp only [walk]
    split <;> simp [ih]

@[simp] theorem evaluate_functions (s : State) :
    (evaluate s).fnu.functions = s.fnu.functions := by
  simp only [evaluate]
  simp

@[simp] theorem copiesAfter_functions (f : Fnu) (p : Publication) : (copiesAfter f p).functions = f.functions := by
  cases p <;> rfl

@[simp] theorem takePublication_functions (s : State) (p : Publication) :
    (takePublication s p).fnu.functions = s.fnu.functions := by
  simp only [takePublication]
  (repeat' split) <;> simp

@[simp] theorem fnuTake_functions (turns : Nat) (s : State) :
    (fnuTake turns s).fnu.functions = s.fnu.functions := by
  induction turns generalizing s with
  | zero => rfl
  | succ n ih =>
    simp only [fnuTake]
    split <;> simp [ih]

@[simp] theorem fnuSettle_functions (s : State) :
    (fnuSettle s).fnu.functions = s.fnu.functions := by
  simp only [fnuSettle]
  simp

@[simp] theorem installEntry_functions (new : Outputs) (x : MapEntry × MapEntry) (old now : Bool) (s : State) :
    (installEntry new x old now s).fnu.functions = s.fnu.functions := by
  simp only [installEntry]
  (repeat' split) <;> simp

@[simp] theorem installWalk_functions (new : Outputs) (entries : List ((MapEntry × MapEntry) × Bool × Bool)) (s : State) :
    (installWalk new entries s).fnu.functions = s.fnu.functions := by
  induction entries generalizing s with
  | nil => rfl
  | cons x rest ih =>
    obtain ⟨e, old, now⟩ := x
    simp [installWalk, ih]

@[simp] theorem mapInstalled_functions (s : State) (oldMap : List Byte) :
    (mapInstalled s oldMap).fnu.functions = s.fnu.functions := by
  simp only [mapInstalled]
  simp

/-! ### The power path, the sequencer's completion and the table store -/

@[simp] theorem publishDcap_functions_phase (s : State) :
    (publishDcap s).fnu.functions = s.fnu.functions ∧ (publishDcap s).ppm.phase = s.ppm.phase := by
  simp only [publishDcap]
  (repeat' split) <;> simp

@[simp] theorem publishHmax_functions_phase (s : State) :
    (publishHmax s).fnu.functions = s.fnu.functions ∧ (publishHmax s).ppm.phase = s.ppm.phase := by
  simp only [publishHmax]
  (repeat' split) <;> simp

@[simp] theorem publishSoundCap_phase (s : State) :
    (publishSoundCap s).ppm.phase = s.ppm.phase := by
  simp only [publishSoundCap]
  (repeat' split) <;> simp

@[simp] theorem powerEnd_functions_phase (s : State) :
    (powerEnd s).fnu.functions = s.fnu.functions ∧ (powerEnd s).ppm.phase = s.ppm.phase := by
  simp only [powerEnd]
  simp

@[simp] theorem announce_functions (s : State) (p : PowerState) :
    (announce s p).fnu.functions = s.fnu.functions := by
  simp only [announce]
  simp

@[simp] theorem enterNormal_functions_phase (s : State) :
    (enterNormal s).fnu.functions = s.fnu.functions ∧ (enterNormal s).ppm.phase = s.ppm.phase := by
  simp only [enterNormal]
  (repeat' split) <;> simp

@[simp] theorem enterCoast_functions_phase (s : State) :
    (enterCoast s).fnu.functions = s.fnu.functions ∧ (enterCoast s).ppm.phase = s.ppm.phase := by
  simp only [enterCoast]
  simp

@[simp] theorem enterHold_functions_phase (s : State) :
    (enterHold s).fnu.functions = s.fnu.functions ∧ (enterHold s).ppm.phase = s.ppm.phase := by
  simp only [enterHold]
  simp

@[simp] theorem setSupply_phase (s : State) (x : Supply) (v : SupplyState) :
    (setSupply s x v).ppm.phase = s.ppm.phase := by
  simp only [setSupply]
  (repeat' split) <;> simp

@[simp] theorem supplyActive_functions_phase (s : State) (x : Supply) :
    (supplyActive s x).fnu.functions = s.fnu.functions ∧ (supplyActive s x).ppm.phase = s.ppm.phase := by
  simp only [supplyActive]
  (repeat' split) <;> simp

@[simp] theorem bufferActive_functions_phase (s : State) :
    (bufferActive s).fnu.functions = s.fnu.functions ∧ (bufferActive s).ppm.phase = s.ppm.phase := by
  simp only [bufferActive]
  (repeat' split) <;> simp

@[simp] theorem supplySelect_functions_phase (s : State) (x : Supply) :
    (supplySelect s x).fnu.functions = s.fnu.functions ∧ (supplySelect s x).ppm.phase = s.ppm.phase := by
  simp only [supplySelect]
  (repeat' split) <;> simp

@[simp] theorem supplyQualified_functions_phase (s : State) (x : Supply) :
    (supplyQualified s x).fnu.functions = s.fnu.functions ∧ (supplyQualified s x).ppm.phase = s.ppm.phase := by
  simp only [supplyQualified]
  simp

@[simp] theorem comparatorReads_phase (s : State) (x : Supply) (volts : BitVec 12) :
    (comparatorReads s x volts).ppm.phase = s.ppm.phase := by
  simp only [comparatorReads]
  simp

@[simp] theorem startQualifying_phase (s : State) (x : Supply) :
    (startQualifying s x).ppm.phase = s.ppm.phase := by
  simp only [startQualifying]
  (repeat' split) <;> simp

@[simp] theorem presenceGain_functions_phase (s : State) (x : Supply) :
    (presenceGain s x).fnu.functions = s.fnu.functions ∧ (presenceGain s x).ppm.phase = s.ppm.phase := by
  simp only [presenceGain]
  simp

@[simp] theorem fastReturnRaise_phase (s : State) (x : Supply) :
    (fastReturnRaise s x).ppm.phase = s.ppm.phase := by
  simp only [fastReturnRaise]
  (repeat' split) <;> simp

@[simp] theorem activeLost_functions_phase (s : State) (x : Supply) :
    (activeLost s x).fnu.functions = s.fnu.functions ∧ (activeLost s x).ppm.phase = s.ppm.phase := by
  simp only [activeLost]
  (repeat' split) <;> simp

@[simp] theorem supplyAbsent_phase (s : State) (x : Supply) :
    (supplyAbsent s x).ppm.phase = s.ppm.phase := by
  simp only [supplyAbsent]
  simp

@[simp] theorem presenceLoss_functions_phase (s : State) (x : Supply) :
    (presenceLoss s x).fnu.functions = s.fnu.functions ∧ (presenceLoss s x).ppm.phase = s.ppm.phase := by
  simp only [presenceLoss]
  (repeat' split) <;> simp

@[simp] theorem presenceEvent_functions_phase (was : Bool) (x : Supply) (s : State) :
    (presenceEvent was x s).fnu.functions = s.fnu.functions ∧ (presenceEvent was x s).ppm.phase = s.ppm.phase := by
  simp only [presenceEvent]
  (repeat' split) <;> simp

@[simp] theorem presenceFollows_functions_phase (s : State) (x : Supply) :
    (presenceFollows s x).fnu.functions = s.fnu.functions ∧ (presenceFollows s x).ppm.phase = s.ppm.phase := by
  simp only [presenceFollows]
  simp

@[simp] theorem settingsInstalled_functions_phase (s : State) :
    (settingsInstalled s).fnu.functions = s.fnu.functions ∧ (settingsInstalled s).ppm.phase = s.ppm.phase := by
  simp only [settingsInstalled]
  simp

@[simp] theorem qualificationExpiry_functions_phase (s : State) (x : Supply) :
    (qualificationExpiry s x).fnu.functions = s.fnu.functions ∧ (qualificationExpiry s x).ppm.phase = s.ppm.phase := by
  simp only [qualificationExpiry]
  (repeat' split) <;> simp

@[simp] theorem fastReturnResult_functions_phase (s : State) (x : Supply) (code : Nat) :
    (fastReturnResult s x code).fnu.functions = s.fnu.functions ∧
      (fastReturnResult s x code).ppm.phase = s.ppm.phase := by
  simp only [fastReturnResult]
  (repeat' split) <;> simp

@[simp] theorem bufferReading_functions_phase (s : State) (code : Nat) :
    (bufferReading s code).fnu.functions = s.fnu.functions ∧ (bufferReading s code).ppm.phase = s.ppm.phase := by
  simp only [bufferReading]
  (repeat' split) <;> simp

@[simp] theorem currentReading_phase (s : State) (r : Nat) :
    (currentReading s r).ppm.phase = s.ppm.phase := by
  simp only [currentReading]
  (repeat' split) <;> simp

@[simp] theorem boardReading_phase (s : State) (code : Nat) :
    (boardReading s code).ppm.phase = s.ppm.phase := by
  simp only [boardReading]
  simp

@[simp] theorem powerReading_functions_phase (s : State) (c : Channel) (source : Source) (code : Nat) :
    (powerReading s c source code).fnu.functions = s.fnu.functions ∧
      (powerReading s c source code).ppm.phase = s.ppm.phase := by
  simp only [powerReading]
  (repeat' split) <;> simp

@[simp] theorem coastExpiry_functions_phase (s : State) :
    (coastExpiry s).fnu.functions = s.fnu.functions ∧ (coastExpiry s).ppm.phase = s.ppm.phase := by
  simp only [coastExpiry]
  (repeat' split) <;> simp

@[simp] theorem bufferExpiry_functions_phase (s : State) :
    (bufferExpiry s).fnu.functions = s.fnu.functions ∧ (bufferExpiry s).ppm.phase = s.ppm.phase := by
  simp only [bufferExpiry]
  (repeat' split) <;> simp

@[simp] theorem overExpiry_functions_phase (s : State) :
    (overExpiry s).fnu.functions = s.fnu.functions ∧ (overExpiry s).ppm.phase = s.ppm.phase := by
  simp only [overExpiry]
  (repeat' split) <;> simp

@[simp] theorem underExpiry_functions_phase (s : State) :
    (underExpiry s).fnu.functions = s.fnu.functions ∧ (underExpiry s).ppm.phase = s.ppm.phase := by
  simp only [underExpiry]
  (repeat' split) <;> simp

@[simp] theorem codeDelivered_functions_phase (s : State) (c : Conversion) (code : Nat) :
    (codeDelivered s c code).fnu.functions = s.fnu.functions ∧ (codeDelivered s c code).ppm.phase = s.ppm.phase := by
  simp only [codeDelivered]
  (repeat' split) <;> simp

@[simp] theorem conversionDone_functions_phase (s : State) (code : BitVec 12) :
    (conversionDone s code).fnu.functions = s.fnu.functions ∧ (conversionDone s code).ppm.phase = s.ppm.phase := by
  simp only [conversionDone]
  (repeat' split) <;> simp

@[simp] theorem addressInstalled_functions (s : State) (old : AddressEntry) :
    (addressInstalled s old).fnu.functions = s.fnu.functions := by
  simp only [addressInstalled]
  (repeat' split) <;> simp

@[simp] theorem ownerInstalls_functions_phase (old s : State) (t : TableId) :
    (ownerInstalls old s t).fnu.functions = s.fnu.functions ∧ (ownerInstalls old s t).ppm.phase = s.ppm.phase := by
  cases t <;> simp [ownerInstalls]

@[simp] theorem tableInstalled_functions_phase (s : State) (t : TableId) (bytes : List Byte) :
    (tableInstalled s t bytes).fnu.functions = s.fnu.functions ∧
      (tableInstalled s t bytes).ppm.phase = s.ppm.phase := by
  simp only [tableInstalled]
  simp

@[simp] theorem tableCommitted_functions_phase (s : State) (t : TableId) :
    (tableCommitted s t).fnu.functions = s.fnu.functions ∧ (tableCommitted s t).ppm.phase = s.ppm.phase := by
  simp only [tableCommitted]
  simp

end Sys2Proof.Laws
end

section
/-!
SUPPORT. What a command can come to, whether the part runs or not, and what the handing on of each frame leaves as it was.
-/
namespace Sys2Proof.Laws

open Sys2Proof.Machine

/-! ### All that a command can come to -/

theorem live_cases {f : State → State} {s t : State} (ht : live f s = .next t) :
    t = s ∨ running s = true ∧ t = f s := by
  cases hr : running s
  · rw [live_reset hr] at ht
    cases ht
    exact .inl rfl
  · rw [live_running hr] at ht
    cases ht
    exact .inr ⟨rfl, rfl⟩

theorem settled_cases {f : State → State} {s t : State} (ht : settled f s = .next t) :
    t = s ∨ running s = true ∧ t = fnuSettle (f s) := by
  cases hr : running s
  · rw [settled_reset hr] at ht
    cases ht
    exact .inl rfl
  · rw [settled_running hr] at ht
    cases ht
    exact .inr ⟨rfl, rfl⟩

/-- A dispatch leaves the state alone, or takes the head frame and discards it or hands it on. -/
theorem dispatch_cases (row : Frame → Bool) (hand : State → Frame → Via → State) (s : State) :
    dispatch row hand s = s ∨
      ∃ f rest, dispatch row hand s = frameTaken s f rest ∨ ∃ via, dispatch row hand s = hand (frameTaken s f rest) f via := by
  cases hin : s.cli.inbound with
  | nil => exact .inl (by simp [dispatch, hin])
  | cons f rest =>
    cases hf : row f with
    | false => exact .inl (by simp [dispatch, hin, hf])
    | true =>
      cases hv : handedVia s f with
      | none => exact .inr ⟨f, rest, .inl (dispatch_discarded hin hf hv)⟩
      | some via => exact .inr ⟨f, rest, .inr ⟨via, dispatch_handed hin hf hv⟩⟩

@[simp] theorem frameTaken_keeps (s : State) (f : Frame) (rest : List Frame) :
    (frameTaken s f rest).dsp = s.dsp ∧ (frameTaken s f rest).tbs = s.tbs ∧ (frameTaken s f rest).fnu = s.fnu ∧
    (frameTaken s f rest).trc = s.trc ∧ (frameTaken s f rest).mbr = s.mbr ∧ (frameTaken s f rest).msq = s.msq ∧
    (frameTaken s f rest).cam = s.cam ∧ (frameTaken s f rest).snd = s.snd ∧ (frameTaken s f rest).smk = s.smk ∧
    (frameTaken s f rest).lmp = s.lmp ∧ (frameTaken s f rest).ppm = s.ppm ∧ (frameTaken s f rest).store = s.store ∧
    (frameTaken s f rest).samples = s.samples ∧ (frameTaken s f rest).free = s.free ∧
    (frameTaken s f rest).pending = s.pending := by
  simp only [frameTaken]
  split <;> simp

/-! ### The frames that DSP hands on -/

@[simp] theorem ownerHeard_keeps (s : State) :
    (ownerHeard s).cli = s.cli ∧ (ownerHeard s).tbs = s.tbs ∧ (ownerHeard s).cam = s.cam ∧ (ownerHeard s).ppm = s.ppm ∧
    (ownerHeard s).store = s.store ∧ (ownerHeard s).samples = s.samples ∧ (ownerHeard s).free = s.free ∧
    (ownerHeard s).pending = s.pending ∧ (ownerHeard s).fnu.functions = s.fnu.functions := by
  simp only [ownerHeard, signalCleared]
  split <;> simp

@[simp] theorem handDrive_keeps (s : State) (f : Frame) (via : Via) :
    (handDrive s f via).tbs = s.tbs ∧ (handDrive s f via).store = s.store ∧ (handDrive s f via).ppm = s.ppm ∧
    (handDrive s f via).fnu.functions = s.fnu.functions := by
  simp only [handDrive]
  split <;> simp

@[simp] theorem handHaltNormal_keeps (s : State) (f : Frame) (via : Via) :
    (handHaltNormal s f via).tbs = s.tbs ∧ (handHaltNormal s f via).store = s.store ∧
    (handHaltNormal s f via).ppm = s.ppm ∧ (handHaltNormal s f via).fnu.functions = s.fnu.functions := by
  simp only [handHaltNormal, haltStated]
  split <;> simp

@[simp] theorem handHaltEmergency_keeps (s : State) (f : Frame) (via : Via) :
    (handHaltEmergency s f via).tbs = s.tbs ∧ (handHaltEmergency s f via).store = s.store ∧
    (handHaltEmergency s f via).ppm = s.ppm ∧ (handHaltEmergency s f via).fnu.functions = s.fnu.functions := by
  simp only [handHaltEmergency]
  split <;> simp

@[simp] theorem handFunc_keeps (s : State) (f : Frame) (via : Via) :
    (handFunc s f via).dsp = s.dsp ∧ (handFunc s f via).tbs = s.tbs ∧ (handFunc s f via).store = s.store ∧
    (handFunc s f via).ppm = s.ppm := by
  cases via <;> simp [handFunc]

@[simp] theorem handStatus_keeps (s : State) (f : Frame) (via : Via) :
    (handStatus s f via).dsp = s.dsp ∧ (handStatus s f via).tbs = s.tbs ∧ (handStatus s f via).fnu = s.fnu ∧
    (handStatus s f via).store = s.store ∧ (handStatus s f via).ppm = s.ppm := by
  simp only [handStatus]
  split <;> simp

/-- The answer to a request is a reply: it touches CLI alone. -/
@[simp] theorem answered_keeps (old s : State) (kind : Nat) (a : Answer) :
    (answered old s kind a).dsp = s.dsp ∧ (answered old s kind a).tbs = s.tbs ∧ (answered old s kind a).fnu = s.fnu ∧
    (answered old s kind a).trc = s.trc ∧ (answered old s kind a).store = s.store ∧
    (answered old s kind a).ppm = s.ppm := by
  simp [answered]

@[simp] theorem handErase_keeps (s : State) (f : Frame) (via : Via) :
    (handErase s f via).dsp = s.dsp ∧ (handErase s f via).tbs = s.tbs ∧ (handErase s f via).fnu = s.fnu ∧
    (handErase s f via).store = s.store ∧ (handErase s f via).ppm = s.ppm := by
  simp only [handErase, setWriteState]
  split <;> simp

@[simp] theorem handProgram_keeps (s : State) (f : Frame) (via : Via) :
    (handProgram s f via).dsp = s.dsp ∧ (handProgram s f via).tbs = s.tbs ∧ (handProgram s f via).fnu = s.fnu ∧
    (handProgram s f via).store = s.store ∧ (handProgram s f via).ppm = s.ppm := by
  simp only [handProgram, setWriteState]
  split <;> simp

@[simp] theorem lossExpiry_keeps (s : State) :
    (lossExpiry s).tbs = s.tbs ∧ (lossExpiry s).store = s.store ∧ (lossExpiry s).ppm = s.ppm ∧
    (lossExpiry s).fnu.functions = s.fnu.functions := by
  simp only [lossExpiry, signalSet]
  (repeat' split) <;> simp

/-- A commit is refused, or its table committed (R45). -/
theorem cfgCommit_cases (s : State) :
    (cfgCommit s).1 = s ∨
      ∃ t, s.tbs.openTable = some t ∧ commitOffence t (s.tbs.edit.take (tableSize t)) = none ∧
        (cfgCommit s).1 = tableCommitted s t := by
  simp only [cfgCommit]
  split
  · exact .inl rfl
  · split
    · exact .inl rfl
    · rename_i t open_
      split
      · exact .inl rfl
      · rename_i sound
        exact .inr ⟨t, open_, sound, rfl⟩

end Sys2Proof.Laws
end

section
/-!
PROOFS. SETTINGS put right: the rows of Table 3-9 do not overlap, so each is clamped, and repaired, from what it was (R46).
-/
namespace Sys2Proof.Laws

open Sys2Proof.Machine

/-! ### Bytes put into a list -/

theorem length_splice {b new : List Byte} {i : Nat} (h : i + new.length ≤ b.length) :
    (splice b i new).length = b.length := by
  simp only [splice, List.length_append, List.length_take, List.length_drop]
  omega

/-- The bytes put in read back, and every other byte reads as before. -/
theorem byteAt_splice {b new : List Byte} {i : Nat} (h : i ≤ b.length) (n : Nat) :
    byteAt (splice b i new) n = if i ≤ n ∧ n < i + new.length then byteAt new (n - i) else byteAt b n := by
  have front : (b.take i).length = i := by simp [h]
  simp only [byteAt, splice, List.getD_eq_getElem?_getD, List.append_assoc]
  by_cases before : n < i
  · rw [List.getElem?_append_left (by omega), List.getElem?_take_of_lt before, if_neg (by omega)]
  · rw [List.getElem?_append_right (by omega), front]
    by_cases within : n < i + new.length
    · rw [List.getElem?_append_left (by omega), if_pos (by omega)]
    · rw [List.getElem?_append_right (by omega), List.getElem?_drop, if_neg (by omega)]
      congr 4
      omega

theorem byteAt_toByte (n : Nat) : byteAt [toByte n] 0 = n % 256 := BitVec.toNat_ofNat n 8

theorem word16At_bytes16 {n : Nat} (h : n < 65536) : word16At (bytes16 n) 0 = n := by
  simp only [word16At, bytes16, byteAt, List.getD_cons_zero, List.getD_cons_succ, toByte_toNat]
  omega

/-- A byte with room for a number reads back as it. -/
theorem slice_all_zero {b : List Byte} {i n : Nat} (h : ∀ k, i ≤ k → byteAt b k = 0) :
    (slice b i n).all (fun x => x = 0) = true := by
  simp only [List.all_eq_true, decide_eq_true_eq]
  intro x hx
  obtain ⟨k, hk, rfl⟩ := List.mem_iff_getElem.mp (List.mem_of_mem_take hx)
  have zero := h (i + k) (by omega)
  rw [List.length_drop] at hk
  rw [byteAt, List.getD_eq_getElem _ _ (by omega)] at zero
  rw [List.getElem_drop]
  exact BitVec.eq_of_toNat_eq zero

/-! ### The settings as fields of an image (Table 3-9) -/

/-- A row of Table 3-9 gives one or two bytes below byte 61, and a range that they can hold. -/
abbrev rowSound (r : SettingRow) : Prop :=
  (r.width = 1 ∨ r.width = 2) ∧ r.offset + r.width ≤ 61 ∧ r.lowest ≤ r.highest ∧ r.highest < 256 ^ r.width

/-- One row's bytes stand before another's. -/
abbrev rowBefore (r q : SettingRow) : Prop := r.offset + r.width ≤ q.offset

/-- No byte is of both rows. -/
abbrev rowsApart (r q : SettingRow) : Prop := rowBefore r q ∨ rowBefore q r

theorem rowSound_of_mem : ∀ r ∈ settingRows, rowSound r := by decide +kernel

theorem settingRows_ordered : settingRows.Pairwise rowBefore := by decide +kernel

section
variable {b : List Byte} {r q : SettingRow}

theorem length_putSetting (size : b.length = 64) (sound : rowSound r) (v : Nat) : (putSetting b r v).length = 64 := by
  obtain ⟨width, place, -, -⟩ := sound
  rw [putSetting, length_splice, size]
  rcases width with one | two
  · simp only [one, if_neg (by decide : ¬(1 = 2)), List.length_singleton]
    omega
  · simp only [two, if_true, bytes16, List.length_cons, List.length_nil]
    omega

/-- Bytes outside a row are left alone. -/
theorem byteAt_putSetting_of_apart (size : b.length = 64) (sound : rowSound r) (v : Nat) {n : Nat}
    (apart : n < r.offset ∨ r.offset + r.width ≤ n) : byteAt (putSetting b r v) n = byteAt b n := by
  obtain ⟨width, place, -, -⟩ := sound
  rw [putSetting, byteAt_splice (by omega), if_neg]
  rcases width with one | two
  · simp only [one, if_neg (by decide : ¬(1 = 2)), List.length_singleton]
    omega
  · simp only [two, if_true, bytes16, List.length_cons, List.length_nil]
    omega

theorem settingValue_congr {c : List Byte}
    (h : ∀ n, q.offset ≤ n → n < q.offset + max 1 q.width → byteAt c n = byteAt b n) :
    settingValue c q = settingValue b q := by
  simp only [settingValue, word16At]
  split
  · rw [h _ (by omega) (by omega), h _ (by omega) (by omega)]
  · exact h _ (by omega) (by omega)

/-- A setting put in reads back. -/
theorem settingValue_putSetting_same (size : b.length = 64) (sound : rowSound r) {v : Nat} (fits : v < 256 ^ r.width) :
    settingValue (putSetting b r v) r = v := by
  obtain ⟨width, place, -, -⟩ := sound
  rcases width with one | two
  · simp only [one] at fits
    simp only [settingValue, putSetting, one, if_neg (by decide : ¬(1 = 2)), byteAt_splice (show r.offset ≤ b.length by omega)]
    simp [byteAt_toByte]
    omega
  · simp only [two] at fits
    have back := word16At_bytes16 (n := v) (by omega)
    simpa [settingValue, putSetting, two, word16At, byteAt_splice (show r.offset ≤ b.length by omega), bytes16] using back

/-- A setting put in leaves the other rows alone. -/
theorem settingValue_putSetting_of_apart (size : b.length = 64) (hr : rowSound r) (hq : rowSound q) (apart : rowsApart r q)
    (v : Nat) : settingValue (putSetting b r v) q = settingValue b q := by
  obtain ⟨width, -, -, -⟩ := hq
  exact settingValue_congr fun n lo hi => byteAt_putSetting_of_apart size hr v (by omega)

end

theorem clampNat_mem {lo hi : Nat} (x : Nat) (h : lo ≤ hi) : lo ≤ clampNat x lo hi ∧ clampNat x lo hi ≤ hi := by
  simp only [clampNat]
  split
  · omega
  · split <;> omega

/-- Every setting of a list of rows clamped to its range, one after another. -/
def rowsClamped (rows : List SettingRow) (b : List Byte) : List Byte :=
  rows.foldl (fun c r => putSetting c r (clampNat (settingValue c r) r.lowest r.highest)) b

theorem length_rowsClamped {rows : List SettingRow} {b : List Byte} (size : b.length = 64)
    (sound : ∀ r ∈ rows, rowSound r) : (rowsClamped rows b).length = 64 := by
  induction rows generalizing b with
  | nil => exact size
  | cons r rest ih =>
    obtain ⟨hr, others⟩ := List.forall_mem_cons.mp sound
    exact ih (length_putSetting size hr _) others

/-- Clamping leaves a row that is apart from those clamped. -/
theorem settingValue_rowsClamped_of_apart {rows : List SettingRow} {b : List Byte} {q : SettingRow} (size : b.length = 64)
    (sound : ∀ r ∈ rows, rowSound r) (hq : rowSound q) (apart : ∀ r ∈ rows, rowsApart r q) :
    settingValue (rowsClamped rows b) q = settingValue b q := by
  induction rows generalizing b with
  | nil => rfl
  | cons r rest ih =>
    obtain ⟨hr, others⟩ := List.forall_mem_cons.mp sound
    obtain ⟨first, later⟩ := List.forall_mem_cons.mp apart
    exact (ih (length_putSetting size hr _) others later).trans (settingValue_putSetting_of_apart size hr hq first _)

/-- Clamping brings each row to its range: the rows do not overlap, so each is clamped from what it was. -/
theorem settingValue_rowsClamped {rows : List SettingRow} {b : List Byte} {q : SettingRow} (size : b.length = 64)
    (sound : ∀ r ∈ rows, rowSound r) (ordered : rows.Pairwise rowBefore) (hq : q ∈ rows) :
    settingValue (rowsClamped rows b) q = clampNat (settingValue b q) q.lowest q.highest := by
  induction rows generalizing b with
  | nil => cases hq
  | cons r rest ih =>
    obtain ⟨hr, others⟩ := List.forall_mem_cons.mp sound
    obtain ⟨first, later⟩ := List.pairwise_cons.mp ordered
    have kept := length_putSetting size hr (clampNat (settingValue b r) r.lowest r.highest)
    rcases List.mem_cons.mp hq with rfl | hq
    · have ⟨_, _, range, room⟩ := hr
      obtain ⟨-, high⟩ := clampNat_mem (settingValue b q) range
      exact (settingValue_rowsClamped_of_apart kept others hr fun x hx => .inr (first x hx)).trans
        (settingValue_putSetting_same size hr (by omega))
    · refine (ih kept others later hq).trans ?_
      rw [settingValue_putSetting_of_apart size hr (others q hq) (.inl (first q hq))]


/-! ### A SETTINGS image put right (R46) -/

/-- Step 1 of R46 done: every setting lies in its range, and the bytes that hold none are 0. -/
structure SettingsInRange (c : List Byte) : Prop where
  size : c.length = 64
  ranges : ∀ r ∈ settingRows, r.lowest ≤ settingValue c r ∧ settingValue c r ≤ r.highest
  rest : ∀ n, 61 ≤ n → byteAt c n = 0

theorem rowsApart_of_ne {r q : SettingRow} (hr : r ∈ settingRows) (hq : q ∈ settingRows) (ne : r ≠ q) : rowsApart r q :=
  List.Pairwise.forall_of_forall_of_flip (R := fun r q => r ≠ q → rowsApart r q) (fun _ _ ne => absurd rfl ne)
    (settingRows_ordered.imp fun before _ => .inl before) (settingRows_ordered.imp fun before _ => .inr before) hr hq ne

theorem settingsClamped_inRange {b : List Byte} (size : b.length = 64) : SettingsInRange (settingsClamped b) := by
  have kept := length_rowsClamped size rowSound_of_mem
  have image : settingsClamped b = splice (rowsClamped settingRows b) 61 [0, 0, 0] := rfl
  have bytes (n : Nat) : byteAt (settingsClamped b) n =
      if 61 ≤ n ∧ n < 64 then byteAt [0, 0, 0] (n - 61) else byteAt (rowsClamped settingRows b) n := by
    rw [image, byteAt_splice (by omega)]
    rfl
  refine ⟨?_, fun r hr => ?_, fun n hn => ?_⟩
  · rw [image, length_splice (by simp [kept]), kept]
  · obtain ⟨width, place, range, -⟩ := rowSound_of_mem r hr
    have value : settingValue (settingsClamped b) r = settingValue (rowsClamped settingRows b) r :=
      settingValue_congr fun n lo hi => by rw [bytes, if_neg (by omega)]
    rw [value, settingValue_rowsClamped size rowSound_of_mem settingRows_ordered hr]
    exact clampNat_mem _ range
  · rw [bytes]
    split
    · have : n - 61 = 0 ∨ n - 61 = 1 ∨ n - 61 = 2 := by omega
      rcases this with h | h | h <;> rw [h] <;> rfl
    · rw [byteAt, List.getD_eq_getElem?_getD, List.getElem?_eq_none (by omega)]
      rfl

/-- A setting given a value in its range leaves the image in range. -/
theorem SettingsInRange.putSetting {c : List Byte} (h : SettingsInRange c) {r : SettingRow} (hr : r ∈ settingRows) {v : Nat}
    (low : r.lowest ≤ v) (high : v ≤ r.highest) : SettingsInRange (putSetting c r v) := by
  have sound := rowSound_of_mem r hr
  have ⟨_, place, _, room⟩ := sound
  refine ⟨length_putSetting h.size sound v, fun q hq => ?_, fun n hn => ?_⟩
  · by_cases same : q = r
    · rw [same, settingValue_putSetting_same h.size sound (by omega)]
      exact ⟨low, high⟩
    · rw [settingValue_putSetting_of_apart h.size sound (rowSound_of_mem q hq) (rowsApart_of_ne hr hq (Ne.symm same))]
      exact h.ranges q hq
  · rw [byteAt_putSetting_of_apart h.size sound v (by omega)]
    exact h.rest n hn

/-- Step 2 of R46 leaves LOAD_OFF below LOAD_ON. -/
theorem settingsLoadRepaired_spec {c : List Byte} (h : SettingsInRange c) :
    SettingsInRange (settingsLoadRepaired c) ∧ byteAt (settingsLoadRepaired c) 10 < byteAt (settingsLoadRepaired c) 9 := by
  obtain ⟨on, -⟩ : 1 ≤ byteAt c 9 ∧ byteAt c 9 ≤ 255 := h.ranges ⟨9, 1, 1, 255, 64⟩ (by decide)
  have off : (⟨10, 1, 0, 254, 32⟩ : SettingRow) ∈ settingRows := by decide
  by_cases right : byteAt c 10 < byteAt c 9
  · rw [settingsLoadRepaired, if_pos right]
    exact ⟨h, right⟩
  · have repaired : settingsLoadRepaired c = putSetting c ⟨10, 1, 0, 254, 32⟩ (byteAt c 9 - 1) := if_neg right
    have top : byteAt c 9 < 256 := (c.getD 9 0).isLt
    have sound := rowSound_of_mem _ off
    have low : byteAt (settingsLoadRepaired c) 10 = byteAt c 9 - 1 := by
      rw [repaired]
      exact settingValue_putSetting_same (r := ⟨10, 1, 0, 254, 32⟩) h.size sound (show byteAt c 9 - 1 < 256 by omega)
    have high : byteAt (settingsLoadRepaired c) 9 = byteAt c 9 := by
      rw [repaired]
      exact byteAt_putSetting_of_apart h.size sound _ (.inl (by decide))
    refine ⟨?_, by omega⟩
    rw [repaired]
    exact h.putSetting off (Nat.zero_le _) (show byteAt c 9 - 1 ≤ 254 by omega)

/-- Step 3 of R46 leaves SMK_DRY above SMK_TARGET, and the load settings as they are. -/
theorem settingsSmokeRepaired_spec {c : List Byte} (h : SettingsInRange c) :
    SettingsInRange (settingsSmokeRepaired c) ∧
      word16At (settingsSmokeRepaired c) 35 < word16At (settingsSmokeRepaired c) 41 ∧
      ∀ n, n < 41 → byteAt (settingsSmokeRepaired c) n = byteAt c n := by
  obtain ⟨-, target⟩ : 0 ≤ word16At c 35 ∧ word16At c 35 ≤ 4094 := h.ranges ⟨35, 2, 0, 4094, 2600⟩ (by decide)
  have dry : (⟨41, 2, 1, 4095, 3300⟩ : SettingRow) ∈ settingRows := by decide
  by_cases right : word16At c 35 < word16At c 41
  · rw [settingsSmokeRepaired, if_pos right]
    exact ⟨h, right, fun _ _ => rfl⟩
  · have repaired : settingsSmokeRepaired c = putSetting c ⟨41, 2, 1, 4095, 3300⟩ (word16At c 35 + 1) := if_neg right
    have sound := rowSound_of_mem _ dry
    have before (n : Nat) (hn : n < 41) : byteAt (settingsSmokeRepaired c) n = byteAt c n := by
      rw [repaired]
      exact byteAt_putSetting_of_apart h.size sound _ (.inl hn)
    have high : word16At (settingsSmokeRepaired c) 41 = word16At c 35 + 1 := by
      rw [repaired]
      exact settingValue_putSetting_same (r := ⟨41, 2, 1, 4095, 3300⟩) h.size sound (show word16At c 35 + 1 < 65536 by omega)
    have low : word16At (settingsSmokeRepaired c) 35 = word16At c 35 := by
      simp only [word16At, before 35 (by decide), before 36 (by decide)]
    refine ⟨?_, by omega, before⟩
    rw [repaired]
    exact h.putSetting dry (Nat.le_add_left 1 _) (Nat.succ_le_succ target)

/-- What a commit of SETTINGS installs passes the start-up test (R46). -/
theorem settingsPutRight_valid {b : List Byte} (size : b.length = 64) :
    (settingsPutRight b).length = 64 ∧ settingsValid (settingsPutRight b) = true := by
  obtain ⟨loadRange, load⟩ := settingsLoadRepaired_spec (settingsClamped_inRange size)
  obtain ⟨range, smoke, before⟩ := settingsSmokeRepaired_spec loadRange
  rw [← before 9 (by decide), ← before 10 (by decide)] at load
  refine ⟨range.size, ?_⟩
  simp only [settingsValid, settingsPairsRight, Bool.and_eq_true, decide_eq_true_eq, List.all_eq_true (l := settingRows)]
  exact ⟨⟨range.ranges, slice_all_zero range.rest⟩, load, smoke⟩

end Sys2Proof.Laws
end

section
/-!
PROOFS. The laws of the tables, the stored images and the editing state, kept by every command (R38, R42, R46, R52 to R54).
-/
namespace Sys2Proof.Laws

open Sys2Proof.Machine

/-! ### One table among the six -/

theorem mem_tableIds (t : TableId) : t ∈ tableIds := by cases t <;> decide

theorem tableIds_nodup : tableIds.Nodup := by decide

theorem tableGet_tablePut {α : Type} (p : PerTable α) (t u : TableId) (x : α) :
    tableGet (tablePut p t x) u = if u = t then x else tableGet p u := by
  cases t <;> cases u <;> rfl

/-- A content that an active copy of a table may have: of its size, and valid (R38). -/
abbrev tableFits (t : TableId) (b : List Byte) : Prop := b.length = tableSize t ∧ contentValid t b = true

theorem tableFits_default (t : TableId) : tableFits t (defaultTable t) := by
  have fits := activeSafe_reset t (mem_tableIds t)
  cases t <;> exact fits

/-- What a commit installs from content without structural faults may be active (R45, R46). -/
theorem tableFits_commitContent {t : TableId} {b : List Byte} (size : b.length = tableSize t)
    (sound : commitOffence t b = none) : tableFits t (commitContent t b) := by
  cases t
  case settings => exact settingsPutRight_valid size
  case address | speed | map | cues | lamps => exact ⟨size, by simp [commitContent, contentValid, sound]⟩

/-- A table loads as its image if that passes, and as its default otherwise: it may be active either way (R53). -/
theorem tableFits_loadedTable {m : PerTable Image} {t : TableId} (size : (tableGet m t).bytes.length = tableSize t) :
    tableFits t (loadedTable m t) := by
  rw [loadedTable]
  split
  case isTrue passes =>
    simp only [imagePasses, Bool.and_eq_true] at passes
    exact ⟨size, passes.2⟩
  case isFalse => exact tableFits_default t

theorem tableGet_loadedTables (m : PerTable Image) (t : TableId) : tableGet (loadedTables m) t = loadedTable m t := by
  cases t <;> rfl

/-! ### The store through a restore (R54) -/

/-- The defaults of a list of tables written. -/
theorem tableGet_restored (l : List TableId) (m : PerTable Image) (u : TableId) :
    tableGet (l.foldl (fun m t => tablePut m t (goodImage (defaultTable t))) m) u =
      if u ∈ l then goodImage (defaultTable u) else tableGet m u := by
  induction l generalizing m with
  | nil => rfl
  | cons t rest ih =>
    rw [List.foldl_cons, ih, tableGet_tablePut]
    by_cases hr : u ∈ rest
    · simp [hr]
    · by_cases ht : u = t <;> simp [hr, ht]

theorem mem_take_tableIds {n : Nat} {x : TableId} (at_ : tableIds[n]? = some x) (w : Nat) :
    x ∈ tableIds.take w ↔ n < w := by
  obtain ⟨hn, rfl⟩ := List.getElem?_eq_some_iff.mp at_
  rw [List.mem_take_iff_getElem]
  constructor
  · rintro ⟨i, hi, same⟩
    have := tableIds_nodup.getElem_inj_iff.mp same
    omega
  · exact fun h => ⟨n, by omega, rfl⟩

/-- A restore cut short: the tables written are good defaults, the one in hand bears its mark, the rest are as they were. -/
theorem tableGet_restoreCutShort (m : PerTable Image) (w : Nat) {n : Nat} {x : TableId} (at_ : tableIds[n]? = some x) :
    tableGet (restoreCutShort m w) x =
      if n < w then goodImage (defaultTable x)
      else if n = w then { tableGet m x with mark := true } else tableGet m x := by
  have front (u : TableId) := tableGet_restored (tableIds.take w) m u
  have mem := mem_take_tableIds at_ w
  simp only [restoreCutShort]
  cases rest : tableIds.drop w with
  | nil =>
    have long : tableIds.length ≤ w := List.drop_eq_nil_iff.mp rest
    have short := (List.getElem?_eq_some_iff.mp at_).1
    rw [front, if_pos (mem.mpr (by omega)), if_pos (by omega)]
  | cons t others =>
    have next : tableIds[w]? = some t := by rw [← List.head?_drop, rest, List.head?_cons]
    have fresh : t ∉ tableIds.take w := by rw [mem_take_tableIds next]; omega
    simp only [markSet, tableGet_tablePut, front, fresh, mem, if_false]
    by_cases same : x = t
    · subst same
      have : n = w := by
        obtain ⟨_, hn⟩ := List.getElem?_eq_some_iff.mp at_
        obtain ⟨_, hw⟩ := List.getElem?_eq_some_iff.mp next
        exact tableIds_nodup.getElem_inj_iff.mp (hn.trans hw.symm)
      subst this
      simp
    · have : n ≠ w := fun h => same (by rw [h, next] at at_; exact (Option.some.inj at_).symm)
      simp [same, this]

/-! ### The laws of the tables, together -/

/-- ActiveSafe, StoreSafe and EditSafe, as they speak of TBS, the store and the phase. -/
structure TablesSound (s : State) : Prop where
  active : ∀ t, tableFits t (tableGet s.tbs.active t)
  images : ∀ t, (tableGet s.store t).bytes.length = tableSize t
  marked : ∀ t ∈ s.tbs.writing, (tableGet s.store t).mark = true
  edit : s.tbs.edit.length = 1024
  pointer : s.tbs.pointer ≤ (s.tbs.openTable.map tableSize).getD 0
  closed : s.tbs.writing.isSome = true → s.tbs.openTable = none
  idle : s.ppm.phase ≠ .running → s.tbs.writing = none

theorem tablesSound_iff (s : State) : TablesSound s ↔ ActiveSafe s ∧ StoreSafe s ∧ EditSafe s :=
  ⟨fun h => ⟨fun t _ => h.active t, ⟨fun t _ => h.images t, h.marked⟩, h.edit, h.pointer, h.closed, h.idle⟩,
    fun ⟨active, ⟨images, marked⟩, edit, pointer, closed, idle⟩ =>
      ⟨fun t => active t (mem_tableIds t), fun t => images t (mem_tableIds t), marked, edit, pointer, closed, idle⟩⟩

theorem tableSize_le (t : TableId) : tableSize t ≤ 1024 := by cases t <;> decide

/-! ### What the resets leave to the tables -/

theorem resetTaken_tbs (s : State) (w : Nat) (phase : Phase) :
    (resetTaken s w phase).tbs = tbsReset s.tbs.active s.tbs.defaulted := by
  simp only [resetTaken, blocksReset, restoreInterrupted]
  split <;> simp

theorem resetTaken_store (s : State) (w : Nat) (phase : Phase) :
    (resetTaken s w phase).store = if s.ppm.phase = .restoring then restoreCutShort s.store w else s.store := by
  simp only [resetTaken, blocksReset, restoreInterrupted, sampleInterrupted_keeps]
  split <;> simp

theorem length_restoreCutShort {m : PerTable Image} (images : ∀ u, (tableGet m u).bytes.length = tableSize u) (w : Nat)
    (u : TableId) : (tableGet (restoreCutShort m w) u).bytes.length = tableSize u := by
  obtain ⟨n, hn⟩ := List.mem_iff_getElem?.mp (mem_tableIds u)
  rw [tableGet_restoreCutShort m w hn]
  split
  · exact (tableFits_default u).1
  · split <;> exact images u

theorem presentQualifies_keeps (s : State) (x : Supply) :
    (presentQualifies s x).tbs = s.tbs ∧ (presentQualifies s x).store = s.store ∧
      (presentQualifies s x).ppm.phase = s.ppm.phase := by
  simp only [presentQualifies]
  split <;> simp

/-- The release loads the tables from the store, and the part runs (R53, R191). -/
theorem released_tables (s : State) (kind : ResetKind) :
    (released s kind).tbs = tbsReset (loadedTables s.store) (someDefaulted s.store) ∧
      (released s kind).store = s.store ∧ (released s kind).ppm.phase = .running := by
  simp only [released, presentQualifies_keeps, announce_keeps]
  exact ⟨rfl, rfl, rfl⟩

section
variable {s t : State} (h : TablesSound s)
include h

/-- The laws speak of nothing else. -/
theorem TablesSound.congr (same : t.tbs = s.tbs ∧ t.store = s.store ∧ t.ppm.phase = s.ppm.phase) : TablesSound t := by
  obtain ⟨tbs, store, phase⟩ := same
  constructor <;> simp only [tbs, store, phase]
  exacts [h.active, h.images, h.marked, h.edit, h.pointer, h.closed, h.idle]

/-! ### The requests (R40 to R44) -/

/-- A change to the editing state alone: the buffer keeps its size, the pointer its bound, and a table is open only while
none is written. -/
theorem TablesSound.edited {b : Tbs} (active : b.active = s.tbs.active) (writing : b.writing = s.tbs.writing)
    (edit : b.edit.length = 1024) (pointer : b.pointer ≤ (b.openTable.map tableSize).getD 0)
    (closed : b.writing.isSome = true → b.openTable = none) : TablesSound (s.setTbs b) where
  active := by simpa [active] using h.active
  images := h.images
  marked := by simpa [writing] using h.marked
  edit := edit
  pointer := pointer
  closed := closed
  idle := by simpa [writing] using h.idle

theorem TablesSound.cfgOpen (id : Nat) : TablesSound (s.setTbs (cfgOpen s.tbs id).1) := by
  have same : TablesSound (s.setTbs s.tbs) := h
  simp only [Machine.cfgOpen]
  split
  · exact same
  · split
    · exact same
    · split
      · exact same
      · rename_i t _ free
        obtain ⟨size, -⟩ := h.active t
        have room := tableSize_le t
        refine h.edited rfl rfl ?_ (Nat.zero_le _) fun busy => absurd busy free
        exact (length_splice (by rw [h.edit, size]; omega)).trans h.edit

theorem TablesSound.cfgPoint (index : Nat) : TablesSound (s.setTbs (cfgPoint s.tbs index).1) := by
  have same : TablesSound (s.setTbs s.tbs) := h
  simp only [Machine.cfgPoint]
  split
  · exact same
  · split
    · exact same
    · rename_i t open_ within
      refine h.edited rfl rfl h.edit ?_ h.closed
      simp only [open_, Option.map_some, Option.getD_some]
      omega

theorem TablesSound.cfgWrite (data : List Byte) : TablesSound (s.setTbs (cfgWrite s.tbs data).1) := by
  have same : TablesSound (s.setTbs s.tbs) := h
  simp only [Machine.cfgWrite]
  split
  · exact same
  · split
    · exact same
    · rename_i t open_ within
      have room := tableSize_le t
      refine h.edited rfl rfl ?_ ?_ h.closed
      · exact (length_splice (by rw [h.edit]; omega)).trans h.edit
      · simp only [open_, Option.map_some, Option.getD_some]
        omega

theorem TablesSound.cfgClose : TablesSound (s.setTbs (cfgClose s.tbs).1) := by
  simp only [Machine.cfgClose]
  split
  · exact h
  · exact h.edited rfl rfl h.edit (Nat.zero_le _) fun _ => rfl

/-! ### The commit and the nonvolatile write (R45, R52) -/

/-- A commit carried out in a running part: the content installed is valid, and the image bears its mark from here. -/
theorem TablesSound.committed {t : TableId} (hr : running s = true)
    (sound : commitOffence t (s.tbs.edit.take (tableSize t)) = none) : TablesSound (tableCommitted s t) := by
  have room := tableSize_le t
  have size : (s.tbs.edit.take (tableSize t)).length = tableSize t := by rw [List.length_take, h.edit]; omega
  have content : tableFits t (editContent s.tbs t) := tableFits_commitContent size sound
  have phase : (tableCommitted s t).ppm.phase = .running := by simpa [running] using hr
  have tbs : (tableCommitted s t).tbs =
      { tableClosed { s.tbs with active := tablePut s.tbs.active t (editContent s.tbs t) } with
        defaulted := false, writing := some t } := by
    simp only [tableCommitted, writeBegun, setStore_tbs, setTbs_tbs, tableInstalled, ownerInstalls_keeps, activePut]
  have store : (tableCommitted s t).store = markSet s.store t := by
    simp only [tableCommitted, writeBegun, setStore_store, tableInstalled_keeps]
  constructor
  · intro u
    simp only [tbs, tableClosed, tableGet_tablePut]
    split
    case isTrue same => rw [same]; exact content
    case isFalse => exact h.active u
  · intro u
    simp only [store, markSet, tableGet_tablePut]
    split
    case isTrue same => rw [same]; exact h.images t
    case isFalse => exact h.images u
  · intro u hu
    rw [tbs] at hu
    cases hu
    simp only [store, markSet, tableGet_tablePut, if_true]
  · rw [tbs]; exact h.edit
  · rw [tbs]; exact Nat.zero_le _
  · rw [tbs]; exact fun _ => rfl
  · exact fun ne => absurd phase ne

theorem TablesSound.cfgCommit (hr : running s = true) : TablesSound (cfgCommit s).1 := by
  rcases cfgCommit_cases s with eq | ⟨t, -, sound, eq⟩ <;> rw [eq]
  · exact h
  · exact h.committed hr sound

theorem TablesSound.nvCompleted : TablesSound (nvCompleted s) := by
  cases writing : s.tbs.writing with
  | none => simpa only [Machine.nvCompleted, writing] using h
  | some t =>
    obtain ⟨size, -⟩ := h.active t
    have open_ : s.tbs.openTable = none := h.closed (by rw [writing]; rfl)
    simp only [Machine.nvCompleted, writing]
    refine ⟨h.active, fun u => ?_, nofun, h.edit, h.pointer, fun _ => open_, fun _ => rfl⟩
    simp only [setStore_store, tableGet_tablePut]
    split
    case isTrue same => rw [same]; exact size
    case isFalse => exact h.images u

/-! ### The resets (R53, R54, R191) -/

theorem TablesSound.resetTaken (w : Nat) (phase : Phase) : TablesSound (resetTaken s w phase) where
  active u := by rw [resetTaken_tbs]; exact h.active u
  images u := by
    rw [resetTaken_store]
    split
    · exact length_restoreCutShort h.images w u
    · exact h.images u
  marked := by rw [resetTaken_tbs]; exact nofun
  edit := by rw [resetTaken_tbs]; exact List.length_replicate
  pointer := Nat.zero_le _
  closed _ := rfl
  idle _ := rfl

theorem TablesSound.restoreDone : TablesSound (restoreDone s) := by
  cases phase : s.ppm.phase with
  | running | held => simpa only [Machine.restoreDone, phase] using h
  | restoring =>
    have idle : s.tbs.writing = none := h.idle (by simp [phase])
    simp only [Machine.restoreDone, phase]
    refine ⟨h.active, fun u => ?_, ?_, h.edit, h.pointer, h.closed, fun _ => idle⟩
    · obtain ⟨size, -⟩ := tableFits_default u
      cases u <;> exact size
    · simp [idle]

theorem TablesSound.released (kind : ResetKind) : TablesSound (released s kind) := by
  obtain ⟨tbs, store, phase⟩ := released_tables s kind
  constructor
  · intro u
    rw [tbs, tbsReset, tableGet_loadedTables]
    exact tableFits_loadedTable (h.images u)
  · rw [store]; exact h.images
  · rw [tbs]; exact nofun
  · rw [tbs]; exact List.length_replicate
  · rw [tbs]; exact le_refl 0
  · rw [tbs]; exact fun _ => rfl
  · exact fun ne => absurd phase ne

theorem TablesSound.resetReleased : TablesSound (resetReleased s) := by
  simp only [Machine.resetReleased]
  split
  · exact h.released _
  · exact h
  · exact h

/-! ### Every command -/

theorem TablesSound.live {f : State → State} (ht : live f s = .next t)
    (hf : running s = true → TablesSound (f s)) : TablesSound t := by
  rcases live_cases ht with rfl | ⟨hr, rfl⟩
  · exact h
  · exact hf hr

theorem TablesSound.settled {f : State → State} (ht : settled f s = .next t)
    (hf : running s = true → TablesSound (f s)) : TablesSound t := by
  rcases settled_cases ht with rfl | ⟨hr, rfl⟩
  · exact h
  · exact (hf hr).congr (by simp)

/-- A dispatch keeps what the handing on keeps. -/
theorem TablesSound.dispatch {hand : State → Frame → Via → State} (row : Frame → Bool) (hr : running s = true)
    (hh : ∀ {u : State} (f : Frame) (via : Via), running u = true → TablesSound u → TablesSound (hand u f via)) :
    TablesSound (dispatch row hand s) := by
  have taken (f : Frame) (rest : List Frame) : TablesSound (frameTaken s f rest) := h.congr (by simp)
  rcases dispatch_cases row hand s with eq | ⟨f, rest, eq | ⟨via, eq⟩⟩ <;> rw [eq]
  · exact h
  · exact taken f rest
  · exact hh f via (by simpa [running] using hr) (taken f rest)

end

/-- The reply to a request touches CLI alone. -/
theorem TablesSound.answered {s u : State} (h : TablesSound u) (kind : Nat) (a : Answer) :
    TablesSound (answered s u kind a) := h.congr (by simp)

theorem TablesSound.handReset {s : State} (h : TablesSound s) (phase : Phase) (f : Frame) (via : Via) :
    TablesSound (handReset phase s f via) := by
  simp only [Machine.handReset]
  split
  · exact h.resetTaken 0 phase
  · exact h.answered 12 _

/-- Every command keeps the laws of the tables: those of the configuration, the nonvolatile store and the resets each by a
lemma of its own, and every other because it leaves the tables and the phase alone. -/
theorem TablesSound.exec {i : Instr} {s t : State} (h : TablesSound s) (ht : exec i s = .next t) : TablesSound t := by
  cases i
  case cfgOpen => exact h.live ht fun hr => h.dispatch _ hr fun f _ _ hu => (hu.cfgOpen _).answered 4 _
  case cfgPoint => exact h.live ht fun hr => h.dispatch _ hr fun f _ _ hu => (hu.cfgPoint _).answered 6 _
  case cfgWrite => exact h.live ht fun hr => h.dispatch _ hr fun f _ _ hu => (hu.cfgWrite _).answered 5 _
  case cfgClose => exact h.live ht fun hr => h.dispatch _ hr fun f _ _ hu => hu.cfgClose.answered 9 _
  case cfgRead => exact h.live ht fun hr => h.dispatch _ hr fun f _ _ hu => hu.answered 7 _
  case cfgCommit => exact h.settled ht fun hr => h.dispatch _ hr fun f _ hv hu => (hu.cfgCommit hv).answered 8 _
  case nvWriteComplete => exact h.live ht fun _ => h.nvCompleted
  case resetNormal | resetFactory => exact h.live ht fun hr => h.dispatch _ hr fun f via _ hu => hu.handReset _ f via
  case factoryRestoreComplete =>
    cases ht
    exact h.restoreDone
  case powerOnReset | brownoutReset =>
    cases ht
    exact h.resetTaken _ _
  case resetRelease =>
    cases ht
    exact h.resetReleased
  case replyFrameTaken => exact h.live ht fun hr => h.dispatch _ hr fun _ _ _ hu => hu
  case statusReq | sampleErase | sampleWrite =>
    exact h.live ht fun hr => h.dispatch _ hr fun _ _ _ hu => hu.congr (by simp)
  case drive | haltNormal | haltEmergency | func =>
    exact h.settled ht fun hr => h.dispatch _ hr fun _ _ _ hu => hu.congr (by simp)
  case presenceGained | presenceLost =>
    have event {u : State} (hu : TablesSound u) (was : Bool) (x : Supply) : TablesSound (presenceEvent was x u) :=
      hu.congr (by simp)
    refine TablesSound.settled ?_ ht fun _ => event ?_ _ _
    all_goals split <;> exact h.congr (by simp)
  case silenceWatchElapsed | virtualChuff =>
    refine h.live ht fun _ => ?_
    split
    · exact h.congr (by simp)
    · exact h
  case characterReceived | brokenCharacter | interByteTimerExpiry | replyFrameSent | relayFrameSent | eraseComplete
      | programComplete | bemfTimerExpiry | pwmPeriodEnd | settleTimerExpiry | tripFreeTimerExpiry | scanTimerExpiry
      | camTick | camEdge | outputSample | smokeRequestTimerExpiry | ageTimerExpiry | puffTimerExpiry | flickerAdvance
      | blinkTimerExpiry | softTimerExpiry =>
    exact h.live ht fun _ => h.congr (by simp)
  case commandLossTimerExpiry | rampTick | stallTimerExpiry | overcurrentTrip | retryTimerExpiry | conversionComplete
      | qualificationTimerExpiry | coastTimerExpiry | bufferRequestTimerExpiry | overTimerExpiry | underTimerExpiry =>
    exact h.settled ht fun _ => h.congr (by simp)

/-- Settles O26: the three laws speak of TBS, the store and the phase alone, and every command keeps them; FNU, which acts on
an empty queue, touches none of these. -/
theorem tablesStaySound : Obligations.TablesStaySound := by
  unfold Obligations.TablesStaySound
  intro s t active store edit ht
  have h : TablesSound s := (tablesSound_iff s).mpr ⟨active, store, edit⟩
  refine (tablesSound_iff t).mp ?_
  cases hp : s.pending with
  | nil =>
    simp only [step, hp] at ht
    cases ht
    exact h.congr (by simp)
  | cons c rest =>
    simp only [step, hp] at ht
    have front : TablesSound (s.setPending rest) := h.congr ⟨rfl, rfl, rfl⟩
    exact front.exec ht

end Sys2Proof.Laws
end

section
/-!
PROOFS. DSP's values and the states of the functions: which commands reach them (R28, R29, R31 to R33, R56, R69).
-/
namespace Sys2Proof.Laws

open Sys2Proof.Machine

/-! ### What a command leaves if its event does -/

section
variable {α : Type} (g : State → α) {s t : State}

theorem live_keeps {f : State → State} (ht : live f s = .next t) (h : g (f s) = g s) : g t = g s := by
  rcases live_cases ht with rfl | ⟨-, rfl⟩
  · rfl
  · exact h

theorem settled_keeps (fnu : ∀ u, g (fnuSettle u) = g u) {f : State → State} (ht : settled f s = .next t)
    (h : g (f s) = g s) : g t = g s := by
  rcases settled_cases ht with rfl | ⟨-, rfl⟩
  · rfl
  · exact (fnu _).trans h

theorem dispatch_keeps (taken : ∀ u f rest, g (frameTaken u f rest) = g u) {hand : State → Frame → Via → State}
    (h : ∀ u f via, g (hand u f via) = g u) (row : Frame → Bool) : g (dispatch row hand s) = g s := by
  rcases dispatch_cases row hand s with eq | ⟨f, rest, eq | ⟨via, eq⟩⟩ <;> rw [eq]
  · exact taken s f rest
  · exact (h _ f via).trans (taken s f rest)

end

theorem handCommit_functions (s : State) (f : Frame) (via : Via) :
    (handCommit s f via).fnu.functions = s.fnu.functions := by
  simp only [handCommit, answered_keeps]
  rcases cfgCommit_cases s with eq | ⟨t, -, -, eq⟩ <;> simp [eq]

theorem restoreDone_keeps (s : State) : (restoreDone s).dsp = s.dsp ∧ (restoreDone s).fnu = s.fnu := by
  simp only [restoreDone]
  split <;> simp

/-- What only some commands reach: DSP's values, and the states of the functions. -/
abbrev reported (s : State) : Dsp × BitVec 64 := (s.dsp, s.fnu.functions)

section
variable {i : Instr} {s t : State}

/-- Every command leaves both but the owner's frames, FUNC, the expiry, a commit and the resets. -/
theorem exec_reported (ht : exec i s = .next t) :
    reported t = reported s ∨ i = .func ∨ i = .drive ∨ i = .haltNormal ∨ i = .haltEmergency ∨
      i = .commandLossTimerExpiry ∨ i = .cfgCommit ∨ i = .resetNormal ∨ i = .resetFactory ∨ i = .resetRelease ∨
      (∃ w, i = .powerOnReset w) ∨ ∃ w, i = .brownoutReset w := by
  have settle : ∀ u, reported (fnuSettle u) = reported u := by simp
  have take : ∀ u f rest, reported (frameTaken u f rest) = reported u := by simp
  cases i
  case func | drive | haltNormal | haltEmergency | commandLossTimerExpiry | cfgCommit | resetNormal | resetFactory
      | resetRelease | powerOnReset | brownoutReset => simp
  all_goals left
  case replyFrameTaken | statusReq | sampleErase | sampleWrite =>
    exact live_keeps reported ht (dispatch_keeps reported take (by simp) _)
  case cfgOpen | cfgPoint | cfgWrite | cfgRead | cfgClose =>
    exact live_keeps reported ht (dispatch_keeps reported take (fun _ _ _ => by exact rfl) _)
  case factoryRestoreComplete =>
    cases ht
    simp [restoreDone_keeps]
  case presenceGained | presenceLost =>
    refine (settled_keeps reported settle ht (by simp)).trans ?_
    split <;> simp
  case silenceWatchElapsed | virtualChuff =>
    refine live_keeps reported ht ?_
    split <;> simp
  case rampTick | stallTimerExpiry | overcurrentTrip | retryTimerExpiry | conversionComplete | qualificationTimerExpiry
      | coastTimerExpiry | bufferRequestTimerExpiry | overTimerExpiry | underTimerExpiry =>
    exact settled_keeps reported settle ht (by simp)
  all_goals exact live_keeps reported ht (by simp)

/-- FUNC leaves DSP's values. -/
theorem exec_func_dsp (ht : exec .func s = .next t) : t.dsp = s.dsp :=
  settled_keeps (·.dsp) (by simp) ht (dispatch_keeps (·.dsp) (by simp) (by simp) _)

/-- The owner's frames, the expiry and a commit leave the functions. -/
theorem exec_heard_functions (ht : exec i s = .next t)
    (hi : i = .drive ∨ i = .haltNormal ∨ i = .haltEmergency ∨ i = .commandLossTimerExpiry ∨ i = .cfgCommit) :
    t.fnu.functions = s.fnu.functions := by
  have settle : ∀ u, (fnuSettle u).fnu.functions = u.fnu.functions := by simp
  have take : ∀ u f rest, (frameTaken u f rest).fnu.functions = u.fnu.functions := by simp
  rcases hi with rfl | rfl | rfl | rfl | rfl
  case inr.inr.inr.inl => exact settled_keeps (·.fnu.functions) settle ht (by simp)
  case inr.inr.inr.inr =>
    exact settled_keeps (·.fnu.functions) settle ht (dispatch_keeps (·.fnu.functions) take handCommit_functions _)
  all_goals exact settled_keeps (·.fnu.functions) settle ht (dispatch_keeps (·.fnu.functions) take (by simp) _)

end

/-- Settles O12: a command that leaves both is none of these, and of the others FUNC leaves DSP's values, and the owner's
frames, the expiry and a commit the functions. -/
theorem onlyTheirCommandsReachTheTimerAndTheFunctions :
    Obligations.OnlyTheirCommandsReachTheTimerAndTheFunctions := by
  unfold Obligations.OnlyTheirCommandsReachTheTimerAndTheFunctions
  refine ⟨fun i s t ht ne => ?_, fun i s t ht ne => ?_⟩
  · rcases exec_reported ht with same | rfl | reaches
    · exact absurd (congrArg Prod.fst same) ne
    · exact absurd (exec_func_dsp ht) ne
    · exact reaches
  · rcases exec_reported ht with same | func | drive | halt | emergency | loss | commit | reset
    · exact absurd (congrArg Prod.snd same) ne
    · exact .inl func
    · exact absurd (exec_heard_functions ht (.inl drive)) ne
    · exact absurd (exec_heard_functions ht (.inr (.inl halt))) ne
    · exact absurd (exec_heard_functions ht (.inr (.inr (.inl emergency)))) ne
    · exact absurd (exec_heard_functions ht (.inr (.inr (.inr (.inl loss))))) ne
    · exact absurd (exec_heard_functions ht (.inr (.inr (.inr (.inr commit))))) ne
    · exact .inr reset

end Sys2Proof.Laws
end

section
/-!
PROOFS. The end of an event at TRC (R78, R84, R94, R98), and the frames of the traction owner (R25, R28, R31).
-/
namespace Sys2Proof.Laws

open Sys2Proof.Machine

/-! ### The end of an event that is no tick -/

/-- The back-EMF timer after its conditions have been tested with TRC at `t` (R78). -/
def bemfTested (s : State) (t : Trc) : Timer :=
  if s.regOn = true ∧ 0 < t.ramp ∧ (t.state = .running ∨ t.state = .reversing) then
    some (t.bemfTimer.getD (s.bemfPeriod * 1000))
  else none

/-- The stall timer after the stall test has been made with TRC at `t` (R94). -/
def stallTested (s : State) (t : Trc) : Timer :=
  if (t.state = .running ∨ t.state = .reversing) ∧ s.regOn = true ∧ s.stallDuty ≤ t.duty ∧ t.speed ≤ s.stallSpeed then
    some (t.stallTimer.getD (100000 * s.stallTime))
  else none

/-- TRC at the end of an event in `s` that has brought it to `t`, its publication and its demand apart: the drive direction
follows at V 0 (R76), and the two timers are tested at a change of state (R78, R94). -/
def ended (s : State) (t : Trc) : Trc :=
  { t with
    drive := if t.ramp = 0 then t.stated else t.drive
    bemfTimer := if t.state = s.trc.state then t.bemfTimer else bemfTested s t
    stallTimer := if t.state = s.trc.state then t.stallTimer else stallTested s t }

theorem followDirection_eq (s : State) :
    followDirection s = s.setTrc { s.trc with drive := if s.trc.ramp = 0 then s.trc.stated else s.trc.drive } := by
  simp only [followDirection]
  split <;> rfl

theorem testBemfTimer_eq (s : State) :
    testBemfTimer s = s.setTrc { s.trc with bemfTimer := bemfTested s s.trc } := by
  have conditions : bemfConditions s = true ↔
      s.regOn = true ∧ 0 < s.trc.ramp ∧ (s.trc.state = .running ∨ s.trc.state = .reversing) := by
    simp [bemfConditions, underRegulation, and_assoc]
  simp only [testBemfTimer, bemfTested, conditions]
  split
  · cases timer : s.trc.bemfTimer with
    | none => rfl
    | some n => exact congrArg (fun b => s.setTrc { s.trc with bemfTimer := b }) timer
  · rfl

theorem testStall_eq (s : State) : testStall s = s.setTrc { s.trc with stallTimer := stallTested s s.trc } := by
  have test : stallTest s = true ↔ (s.trc.state = .running ∨ s.trc.state = .reversing) ∧ s.regOn = true ∧
      s.stallDuty ≤ s.trc.duty ∧ s.trc.speed ≤ s.stallSpeed := by
    simp [stallTest, underRegulation, and_assoc]
  simp only [testStall, stallTested, test, Nat.mul_comm 100000]
  split
  · cases timer : s.trc.stallTimer with
    | none => rfl
    | some n => exact congrArg (fun b => s.setTrc { s.trc with stallTimer := b }) timer
  · rfl

theorem endedTrc_setTrc (s : State) (t : Trc) : endedTrc s.trc false false (s.setTrc t) = ended s t := by
  simp only [endedTrc, followDirection_eq, ended, setTrc_trc, setTrc_twice]
  by_cases same : t.state = s.trc.state
  · simp only [same, ne_eq, not_true, decide_false, Bool.or_self, Bool.false_eq_true, if_true, if_false, setTrc_trc]
    rfl
  · simp only [ne_eq, same, not_false_eq_true, decide_true, Bool.or_true, if_true, if_false, testBemfTimer_eq,
      testStall_eq, setTrc_trc]
    rfl

/-- An event at TRC in `s` that has brought TRC to `t` ends in `u`. -/
def EndsAs (s : State) (t : Trc) (u : State) : Prop :=
  TractionEvent s u ∧ ∃ p o, u.trc = { ended s t with published := p, outstanding := o }

/-- An event that leaves the publication and the outstanding request to its end. -/
theorem endsAs_tractionEnd {s : State} {t : Trc} (published : t.published = s.trc.published)
    (outstanding : t.outstanding = s.trc.outstanding) :
    EndsAs s t (tractionEnd s.trc false false false (s.setTrc t)) := by
  obtain ⟨trc, fnu, demand, gap, same⟩ := tractionEnd_spec s.trc false false false (s.setTrc t)
  simp only [endedTrc_setTrc] at trc fnu
  refine ⟨⟨?_, ?_, demand, ?_, ?_⟩, _, _, trc⟩
  · rw [trc]
    rfl
  · rw [fnu, trc]
    simp only [setTrc_trc, published]
    rfl
  · simpa [outstanding] using gap
  · intro p hp
    have kept := same p hp
    cases p <;> first | exact kept | simp at hp

/-! ### The commands and notices to TRC, each as the end of one event -/

/-- T for a step, by the speed table and the shunt flag (R71). -/
def targetFor (s : State) (step : Nat) : Nat :=
  if s.trc.shunt then tableTarget s.tbs.active.speed step / 2 else tableTarget s.tbs.active.speed step

/-- TRC with step, stated direction and target as a drive command taken while armed sets them (R86). -/
def driveTaken (s : State) (step : Nat) (d : Dir) : Trc :=
  { s.trc with step := min 240 step, stated := d, target := targetFor s (min 240 step) }

theorem driveArmed_ends (s : State) (step : Nat) (d : Dir) :
    EndsAs s { driveTaken s step d with state := driveState (driveTaken s step d) } (driveArmed s step d) :=
  endsAs_tractionEnd rfl rfl

/-- TRC re-armed in its state (R87); a failsafe that re-arming ends gives the regulator I = 0. -/
def armedAnew (s : State) (d : Dir) : Trc :=
  { s.trc with armed := true, step := 0, target := 0, stated := d
               integral := if s.trc.state = .failsafe then 0 else s.trc.integral }

/-- A target of 0 leaves IDLE, and RUNNING at V 0 for it (R86, R87). -/
def stoppedState (t : Trc) : Traction :=
  if rearmState t = .running ∧ t.ramp = 0 then .idle else rearmState t

theorem rearm_ends (s : State) (d : Dir) :
    EndsAs s { armedAnew s d with state := stoppedState (armedAnew s d) } (rearm s d) := by
  have taken : (if s.trc.state = .failsafe then
        { s.trc with armed := true, step := 0, target := 0, stated := d, integral := 0 }
      else { s.trc with armed := true, step := 0, target := 0, stated := d }) = armedAnew s d := by
    simp only [armedAnew]
    split <;> rfl
  have idle (t : Trc) (h : t.target = 0) : idleOrRunning { t with state := rearmState t } =
      { t with state := stoppedState t } := by
    cases state : rearmState t <;> simp [idleOrRunning, stoppedState, state, h]
    split <;> rfl
  have eq : rearm s d = tractionEnd s.trc false false false
      (s.setTrc { armedAnew s d with state := stoppedState (armedAnew s d) }) := by
    simp only [rearm]
    rw [taken, idle _ rfl]
  rw [eq]
  exact endsAs_tractionEnd rfl rfl

/-! ### FNU neither arms nor disarms -/

@[simp] theorem tractionEnd_armed (before : Trc) (tick work atOnce : Bool) (s : State) :
    (tractionEnd before tick work atOnce s).trc.armed = s.trc.armed := by
  obtain ⟨trc, -⟩ := tractionEnd_spec before tick work atOnce s
  rw [trc]
  simp only [endedTrc, followDirection_eq, testBemfTimer_eq, testStall_eq]
  (repeat' split) <;> rfl

@[simp] theorem tractionShunt_armed (s : State) (on : Bool) : (tractionShunt s on).trc.armed = s.trc.armed := by
  have kept (t : Trc) : (idleOrRunning t).armed = t.armed := by
    simp only [idleOrRunning]
    (repeat' split) <;> rfl
  simp [tractionShunt, retarget, kept, workOutTarget]

@[simp] theorem deliverEntry_armed (new : Outputs) (e : MapEntry) (on : Bool) (s : State) :
    (deliverEntry new e on s).trc.armed = s.trc.armed := by
  have shunt : (deliverShunt new s).trc.armed = s.trc.armed := by
    simp only [deliverShunt]
    split <;> simp
  have momentum : (deliverMomentum new s).trc.armed = s.trc.armed := by
    simp only [deliverMomentum, tractionMomentum]
    split <;> simp
  simp only [deliverEntry]
  (repeat' split) <;> simp [shunt, momentum]

@[simp] theorem evaluate_armed (s : State) : (evaluate s).trc.armed = s.trc.armed := by
  have walked (new : Outputs) (entries : List (MapEntry × Bool × Bool)) (u : State) :
      (walk new entries u).trc.armed = u.trc.armed := by
    induction entries generalizing u with
    | nil => rfl
    | cons x rest ih =>
      simp only [walk]
      split <;> simp [ih]
  simp [evaluate, walked]

@[simp] theorem fnuSettle_armed (s : State) : (fnuSettle s).trc.armed = s.trc.armed := by
  have taken (u : State) (p : Publication) : (takePublication u p).trc.armed = u.trc.armed := by
    simp only [takePublication]
    split <;> simp
  suffices turns : ∀ n u, (fnuTake n u).trc.armed = u.trc.armed from turns fnuTurns s
  intro n
  induction n with
  | zero => exact fun _ => rfl
  | succ n ih =>
    intro u
    simp only [fnuTake]
    split <;> simp [ih, taken]

@[simp] theorem ownerHeard_armed (s : State) : (ownerHeard s).trc.armed = s.trc.armed := by
  simp only [ownerHeard, signalCleared]
  split <;> simp

/-! ### The owner heard (R25, R26, R28, R31) -/

/-- The command-loss timer restarts, and SIGNAL_LOST is clear. -/
@[simp] theorem ownerHeard_dsp (s : State) :
    (ownerHeard s).dsp =
      { lossTimer := if s.lossTime = 0 then none else some (s.lossTime * 100000), signalLost := false } := by
  simp only [ownerHeard, signalCleared]
  cases lost : (lossRestart s).dsp.signalLost with
  | true => simp [lossRestart]
  | false =>
    have same : s.dsp.signalLost = false := lost
    simp [lossRestart, same]

/-- Who the owner is, is read from the address table alone. -/
theorem ownerEntry_congr {s t : State} (h : t.tbs = s.tbs) : ownerEntry t = ownerEntry s := by
  simp only [ownerEntry, State.entry, h]

theorem fromOwner_congr {s t : State} (h : t.tbs = s.tbs) (via : Via) : fromOwner t via = fromOwner s via := by
  cases via <;> simp only [fromOwner, ownerEntry_congr h]

theorem handedDirection_congr {s t : State} (h : t.tbs = s.tbs) (d : Dir) : handedDirection t d = handedDirection s d := by
  have reversed : ownerReversed t = ownerReversed s := by simp only [ownerReversed, ownerEntry_congr h, State.entry, h]
  simp only [handedDirection, reversed]

theorem fromOwner_iff (s : State) (via : Via) :
    fromOwner s via = true ↔ via = .broadcast ∨ via = .entry (ownerEntry s) := by
  cases via <;> simp [fromOwner]

section
variable {s : State} {f : Frame} {rest : List Frame} {via : Via}

/-- The row of HALT NORMAL, and of HALT EMERGENCY, for a frame that names it. -/
theorem isKindBut_of_ne {kind i v : Nat} (h : frameKind f = kind) (ne : byteAt (framePayload f) i ≠ v) :
    isKindBut kind i v f = true := by
  simp [isKindBut, h, ne]

section
variable (handed : HandedOn s f rest via)
include handed

theorem exec_drive_handed (kind : frameKind f = 0) :
    exec .drive s = .next (fnuSettle (handDrive (frameTaken s f rest) f via)) := by
  obtain ⟨⟨hr, hin⟩, hv⟩ := handed
  exact (settled_running hr).trans (by rw [dispatch_handed hin (decide_eq_true kind) hv])

theorem exec_haltNormal_handed (row : isKindBut 1 0 1 f = true) :
    exec .haltNormal s = .next (fnuSettle (handHaltNormal (frameTaken s f rest) f via)) := by
  obtain ⟨⟨hr, hin⟩, hv⟩ := handed
  exact (settled_running hr).trans (by rw [dispatch_handed hin row hv])

theorem exec_haltEmergency_handed (row : isKindBut 1 0 0 f = true) :
    exec .haltEmergency s = .next (fnuSettle (handHaltEmergency (frameTaken s f rest) f via)) := by
  obtain ⟨⟨hr, hin⟩, hv⟩ := handed
  exact (settled_running hr).trans (by rw [dispatch_handed hin row hv])

end

/-- A DRIVE from the owner is a drive command to TRC, once the owner has been heard. -/
theorem handDrive_of_owner (owner : fromOwner s via = true) :
    handDrive (frameTaken s f rest) f via =
      driveCommand (ownerHeard (frameTaken s f rest)) (byteAt (framePayload f) 1)
        (handedDirection s (dirOfByte (byteAt (framePayload f) 0))) := by
  have tbs : (frameTaken s f rest).tbs = s.tbs := by simp
  simp only [handDrive, fromOwner_congr tbs, owner, if_true, handedDirection_congr tbs]

theorem handHaltNormal_of_owner (owner : fromOwner s via = true) :
    handHaltNormal (frameTaken s f rest) f via = haltStated (ownerHeard (frameTaken s f rest)) := by
  have tbs : (frameTaken s f rest).tbs = s.tbs := by simp
  simp only [handHaltNormal, fromOwner_congr tbs, owner, if_true]

theorem handHaltEmergency_eq :
    handHaltEmergency (frameTaken s f rest) f via =
      emergencyHalt (if fromOwner s via = true then ownerHeard (frameTaken s f rest) else frameTaken s f rest) := by
  have tbs : (frameTaken s f rest).tbs = s.tbs := by simp
  simp only [handHaltEmergency, fromOwner_congr tbs]

/-- From another entry, a DRIVE and a HALT NORMAL are ignored. -/
theorem hand_of_other (other : fromOwner s via = false) :
    handDrive (frameTaken s f rest) f via = frameTaken s f rest ∧
      handHaltNormal (frameTaken s f rest) f via = frameTaken s f rest := by
  have tbs : (frameTaken s f rest).tbs = s.tbs := by simp
  simp [handDrive, handHaltNormal, fromOwner_congr tbs, other]

/-- What DSP holds after a DRIVE or a HALT handed on: the owner has been heard, or nobody has. -/
theorem hand_dsp :
    let u := frameTaken s f rest
    let dsp := if fromOwner s via = true then (ownerHeard u).dsp else s.dsp
    (handDrive u f via).dsp = dsp ∧ (handHaltNormal u f via).dsp = dsp ∧ (handHaltEmergency u f via).dsp = dsp := by
  intro u dsp
  cases owner : fromOwner s via with
  | true =>
    rw [handDrive_of_owner owner, handHaltNormal_of_owner owner, handHaltEmergency_eq]
    simp [haltStated, owner, dsp, u]
  | false =>
    obtain ⟨drive, halt⟩ := hand_of_other (f := f) (rest := rest) owner
    rw [drive, halt, handHaltEmergency_eq]
    simp [owner, dsp]

end

/-- Settles O11. -/
theorem ownersFramesAreHeardOthersDoNotDrive : Obligations.OwnersFramesAreHeardOthersDoNotDrive := by
  unfold Obligations.OwnersFramesAreHeardOthersDoNotDrive
  refine ⟨fun i row s f rest via hi hrow handed hf => ?_, fun s f rest k handed ne => ⟨fun kind => ?_, fun kind normal => ?_⟩⟩
  · obtain ⟨drive, normal, emergency⟩ := hand_dsp (s := s) (f := f) (rest := rest) (via := via)
    have heard : (if fromOwner s via = true then (ownerHeard (frameTaken s f rest)).dsp else s.dsp) =
        if via = .broadcast ∨ via = .entry (ownerEntry s) then
          { lossTimer := if s.lossTime = 0 then none else some (s.lossTime * 100000), signalLost := false }
        else s.dsp := by
      have time : (frameTaken s f rest).lossTime = s.lossTime := by simp [State.lossTime, setting1]
      simp only [fromOwner_iff, ownerHeard_dsp, time]
    rw [← heard]
    rcases hi with rfl | rfl | rfl <;> cases hrow
    · exact ⟨_, exec_drive_handed handed (of_decide_eq_true hf), by simpa using drive⟩
    · exact ⟨_, exec_haltNormal_handed handed hf, by simpa using normal⟩
    · exact ⟨_, exec_haltEmergency_handed handed hf, by simpa using emergency⟩
  all_goals
    have other : fromOwner s (.entry k) = false := decide_eq_false ne
    obtain ⟨drive, halt⟩ := hand_of_other (f := f) (rest := rest) other
  · rw [exec_drive_handed handed kind, drive]
  · rw [exec_haltNormal_handed handed (isKindBut_of_ne kind (by omega)), halt]

end Sys2Proof.Laws
end

section
/-!
PROOFS. DRIVE and HALT at TRC (R86 to R88), the expiry of the command-loss timer (R29, R89), and the installation of an address
table (R32).
-/
namespace Sys2Proof.Laws

open Sys2Proof.Machine

/-- An owner's DRIVE or HALT leaves the speed table as it was before the frame was taken. -/
theorem heard_speed (s : State) (f : Frame) (rest : List Frame) :
    (ownerHeard (frameTaken s f rest)).tbs.active.speed = s.tbs.active.speed := by simp

/-- Settles O13. -/
theorem driveWhileArmed : Obligations.DriveWhileArmed := by
  unfold Obligations.DriveWhileArmed
  intro s f rest via handed kind owner armed s0
  have armed0 : s0.trc.armed = true := by simpa [s0] using armed
  obtain ⟨event, p, o, trc⟩ := driveArmed_ends s0 (byteAt (framePayload f) 1)
    (handedDirection s (dirOfByte (byteAt (framePayload f) 0)))
  refine ⟨_, ?_, event, ?_⟩
  · rw [exec_drive_handed handed kind, handDrive_of_owner owner, driveCommand, if_pos armed0]
  · simp only [StallTested, trc]
    refine ⟨rfl, rfl, ?_, ?_, rfl, rfl, ?_, ?_⟩
    · rw [← heard_speed s f rest]
      rfl
    · cases state : s0.trc.state <;> simp [ended, driveState, driveTaken, state]
    · exact fun same => ⟨if_pos same, if_pos same⟩
    · exact fun ne => if_neg ne

/-- Settles O14. -/
theorem driveWhileDisarmed : Obligations.DriveWhileDisarmed := by
  unfold Obligations.DriveWhileDisarmed
  intro s f rest via handed kind owner armed s0
  have disarmed : ¬s0.trc.armed = true := by simpa [s0] using armed
  have acts : exec .drive s = .next (fnuSettle (driveCommand s0 (byteAt (framePayload f) 1)
      (handedDirection s (dirOfByte (byteAt (framePayload f) 0))))) := by
    rw [exec_drive_handed handed kind, handDrive_of_owner owner]
  rw [driveCommand, if_neg disarmed] at acts
  refine ⟨fun step => ?_, fun step => ?_⟩
  · rw [acts, if_neg step]
  · rw [if_pos step] at acts
    obtain ⟨event, p, o, trc⟩ := rearm_ends s0 (handedDirection s (dirOfByte (byteAt (framePayload f) 0)))
    refine ⟨_, acts, event, ?_⟩
    simp only [trc]
    refine ⟨rfl, rfl, ?_, ?_, ?_, rfl⟩
    · rintro (state | state | state | state) <;> simp [ended, stoppedState, rearmState, armedAnew, state]
    · intro state way
      simp only [ended, stoppedState, rearmState, armedAnew, state]
      have : ¬s0.trc.ramp = 0 := by omega
      simp [this]
    · rintro (state | state) <;> simp [ended, stoppedState, rearmState, armedAnew, state]

/-- Settles O15: armed, it is a drive command of step 0; disarmed, it re-arms. -/
theorem haltNormalIsStepZero : Obligations.HaltNormalIsStepZero := by
  unfold Obligations.HaltNormalIsStepZero
  intro s f rest via handed kind normal owner s0
  have acts : exec .haltNormal s = .next (fnuSettle (driveCommand s0 0 s0.trc.stated)) := by
    rw [exec_haltNormal_handed handed (isKindBut_of_ne kind (by omega)), handHaltNormal_of_owner owner]
    rfl
  by_cases armed : s0.trc.armed = true
  · rw [driveCommand, if_pos armed] at acts
    obtain ⟨event, p, o, trc⟩ := driveArmed_ends s0 0 s0.trc.stated
    have target : targetFor s0 (min 240 0) = 0 := by simp [targetFor, tableTarget]
    refine ⟨_, acts, event, ?_⟩
    simp only [trc]
    refine ⟨armed, rfl, target, rfl, rfl, rfl, ?_, ?_, ?_, ?_, ?_, ?_, ?_, rfl, rfl, rfl, rfl, rfl, rfl, rfl⟩
    · intro state
      simp [ended, driveState, driveTaken, state, targetFor, tableTarget]
    · intro state still
      simp [ended, driveState, driveTaken, state, targetFor, tableTarget, still]
    · intro state way agree
      have : ¬s0.trc.ramp = 0 := by omega
      simp [ended, driveState, driveTaken, state, agree, this]
    · intro state way turned _
      simp [ended, driveState, driveTaken, state, turned]
    · exact fun _ disarmed => absurd armed (by simp [disarmed])
    · exact fun _ _ disarmed => absurd armed (by simp [disarmed])
    · rintro (state | state) <;> simp [ended, driveState, driveTaken, state]
  · rw [driveCommand, if_neg armed, if_pos rfl] at acts
    obtain ⟨event, p, o, trc⟩ := rearm_ends s0 s0.trc.stated
    refine ⟨_, acts, event, ?_⟩
    simp only [trc]
    refine ⟨rfl, rfl, rfl, rfl, rfl, rfl, ?_, ?_, ?_, ?_, ?_, ?_, ?_, rfl, rfl, rfl, rfl, rfl, rfl, rfl⟩
    · intro state
      simp [ended, stoppedState, rearmState, armedAnew, state]
    · intro state still
      simp [ended, stoppedState, rearmState, armedAnew, state, still]
    · intro state way _
      have : ¬s0.trc.ramp = 0 := by omega
      simp [ended, stoppedState, rearmState, armedAnew, state, this]
    · exact fun _ _ _ armed' => absurd armed' armed
    · rintro (state | state | state) _ <;> simp [ended, stoppedState, rearmState, armedAnew, state]
    · intro state way _
      have : ¬s0.trc.ramp = 0 := by omega
      simp [ended, stoppedState, rearmState, armedAnew, state, this]
    · rintro (state | state) <;> simp [ended, stoppedState, rearmState, armedAnew, state]

/-! ### The emergency stop at the bridge (R88, R103) -/

theorem emergBrakes_congr {s t : State} (h : t.tbs = s.tbs) : t.emergBrakes = s.emergBrakes := by
  rw [State.emergBrakes, State.emergBrakes, setting1, setting1, h]

theorem bridgeEmergency_mbr (s : State) :
    (bridgeEmergency s).mbr.bridge = (if s.emergBrakes then .brake else .off) ∧
      (bridgeEmergency s).mbr.retryTimer = s.mbr.retryTimer := by
  simp only [bridgeEmergency]
  split <;> exact ⟨rfl, rfl⟩

/-- A demand of EMERGENCY_STOP opens the bridge as EMERG_MODE says, unless it brakes already, and ends a trip. -/
theorem takeMode_emergencyStop {s : State} (moving : s.mbr.bridge ≠ .brake) :
    (takeMode s .emergencyStop).mbr.bridge = (if s.emergBrakes then .brake else .off) ∧
      (takeMode s .emergencyStop).mbr.retryTimer = if s.mbr.bridge = .tripped then none else s.mbr.retryTimer := by
  have abandoned : (bridgeEmergency (abandonGap s)).mbr.bridge = (if s.emergBrakes then .brake else .off) ∧
      (bridgeEmergency (abandonGap s)).mbr.retryTimer = s.mbr.retryTimer := by
    have tbs : (abandonGap s).tbs = s.tbs := by simp
    have timer : (abandonGap s).mbr.retryTimer = s.mbr.retryTimer := by
      simp only [abandonGap]
      split <;> rfl
    rw [← emergBrakes_congr tbs, ← timer]
    exact bridgeEmergency_mbr _
  cases bridge : s.mbr.bridge <;> simp only [takeMode, bridge]
  case off => exact bridgeEmergency_mbr s
  case drive | gap => exact abandoned
  case brake => exact absurd bridge moving
  case tripped => exact bridgeEmergency_mbr (endTrip s)

theorem handDemand_emergency {s : State} {atOnce : Bool} (state : s.trc.state = .emergency)
    (mode : s.mbr.mode ≠ .emergencyStop) (moving : s.mbr.bridge ≠ .brake) :
    (handDemand s atOnce).mbr.bridge = (if s.emergBrakes then .brake else .off) ∧
      (handDemand s atOnce).mbr.retryTimer = if s.mbr.bridge = .tripped then none else s.mbr.retryTimer := by
  have changed : demandChanged s = true := by simp [demandChanged, state, demandedMode, Ne.symm mode]
  simp only [handDemand, changed, Bool.true_or, if_true, takeDemand, state, demandedMode, decide_true, Bool.or_true]
  exact takeMode_emergencyStop (s := s.setMbr _) moving

/-- An event that ends in EMERGENCY stops a bridge that has not had that demand. -/
theorem tractionEnd_emergency {before : Trc} {tick work atOnce : Bool} {s : State} (state : s.trc.state = .emergency)
    (mode : s.mbr.mode ≠ .emergencyStop) (moving : s.mbr.bridge ≠ .brake) :
    (tractionEnd before tick work atOnce s).mbr.bridge = (if s.emergBrakes then .brake else .off) ∧
      (tractionEnd before tick work atOnce s).mbr.retryTimer =
        if s.mbr.bridge = .tripped then none else s.mbr.retryTimer := by
  obtain ⟨u, eq, same, mbr, tbs⟩ : ∃ u, tractionEnd before tick work atOnce s = handDemand u atOnce ∧
      u.trc.state = s.trc.state ∧ u.mbr = s.mbr ∧ u.tbs = s.tbs := by
    refine ⟨_, rfl, ?_, ?_, ?_⟩
    · simp only [publishTraction, followDirection_eq, testBemfTimer_eq, testStall_eq]
      (repeat' split) <;> simp
    · simp only [publishTraction_keeps]
      (repeat' split) <;> simp
    · simp only [publishTraction_keeps]
      (repeat' split) <;> simp
  rw [eq, ← emergBrakes_congr tbs, ← mbr]
  exact handDemand_emergency (same.trans state) (by rwa [mbr]) (by rwa [mbr])

/-! ### The emergency halt at TRC (R88) -/

/-- In the halted states it does nothing. -/
theorem emergencyHalt_halted {s : State}
    (halted : s.trc.state = .emergency ∨ s.trc.state = .lockout ∨ s.trc.state = .stalled) : emergencyHalt s = s := by
  rcases halted with state | state | state <;> simp only [emergencyHalt, state]

theorem emergencyHalt_suspended {s : State} (suspended : s.trc.state = .suspended) :
    EndsAs s (disarmed s.trc) (emergencyHalt s) := by
  simp only [emergencyHalt, suspended]
  exact endsAs_tractionEnd rfl rfl

/-- In every other state TRC enters EMERGENCY, disarmed and with V 0. -/
theorem emergencyHalt_eq {s : State} (emergency : s.trc.state ≠ .emergency) (lockout : s.trc.state ≠ .lockout)
    (stalled : s.trc.state ≠ .stalled) (suspended : s.trc.state ≠ .suspended) :
    emergencyHalt s = tractionEnd s.trc false false false (s.setTrc (haltedIn s.trc .emergency)) := by
  cases state : s.trc.state <;> simp_all [emergencyHalt]

theorem haltedIn_ends (s : State) (state : Traction) :
    EndsAs s (haltedIn s.trc state) (tractionEnd s.trc false false false (s.setTrc (haltedIn s.trc state))) :=
  endsAs_tractionEnd rfl rfl

/-- A halted state is left by no timer: neither runs in it. -/
theorem ended_haltedIn_emergency (s : State) :
    ended s (haltedIn s.trc .emergency) =
      { s.trc with state := .emergency, armed := false, step := 0, target := 0, ramp := 0, duty := 0, integral := 0
                   speed := 0, load := 0, loaded := false, bemfTimer := none, stallTimer := none
                   drive := s.trc.stated } := by
  simp [ended, haltedIn, disarmed, rampStopped, bemfTested, stallTested]

/-- An emergency halt in a state that moves ends in EMERGENCY, and stops a bridge that has not had that demand. -/
theorem emergencyHalt_ends {s : State} (emergency : s.trc.state ≠ .emergency) (lockout : s.trc.state ≠ .lockout)
    (stalled : s.trc.state ≠ .stalled) (suspended : s.trc.state ≠ .suspended) :
    EndsAs s (haltedIn s.trc .emergency) (emergencyHalt s) ∧
      (s.mbr.mode ≠ .emergencyStop → s.mbr.bridge ≠ .brake →
        (emergencyHalt s).mbr.bridge = (if s.emergBrakes then .brake else .off) ∧
          (emergencyHalt s).mbr.retryTimer = if s.mbr.bridge = .tripped then none else s.mbr.retryTimer) := by
  rw [emergencyHalt_eq emergency lockout stalled suspended]
  exact ⟨haltedIn_ends s .emergency,
    fun mode moving => tractionEnd_emergency (s := s.setTrc (haltedIn s.trc .emergency)) rfl mode moving⟩

/-- Settles O16. -/
theorem emergencyHalt_holds : Obligations.EmergencyHalt := by
  unfold Obligations.EmergencyHalt
  intro s f rest via handed kind emergency s0
  have acts : exec .haltEmergency s = .next (fnuSettle (emergencyHalt s0)) := by
    rw [exec_haltEmergency_handed handed (isKindBut_of_ne kind (by omega)), handHaltEmergency_eq]
  have brakes : s0.emergBrakes = s.emergBrakes := emergBrakes_congr (by simp only [s0]; split <;> simp)
  clear_value s0
  refine ⟨fun halted => ?_, fun suspended => ?_, fun notEmergency notLockout notStalled notSuspended => ?_⟩
  · rw [acts, emergencyHalt_halted halted]
  · obtain ⟨event, p, o, trc⟩ := emergencyHalt_suspended suspended
    refine ⟨_, acts, event, ?_⟩
    simp only [trc]
    exact ⟨suspended, rfl, rfl, rfl, rfl, rfl⟩
  · have ⟨⟨event, p, o, trc⟩, bridge⟩ := emergencyHalt_ends notEmergency notLockout notStalled notSuspended
    refine ⟨_, acts, event, ?_, brakes ▸ bridge⟩
    rw [trc, ended_haltedIn_emergency]

/-! ### The notice of command loss (R89) -/

/-- In FAILSAFE and in the halted states it does nothing. -/
theorem lossNotice_halted {s : State} (halted : s.trc.state = .failsafe ∨ s.trc.state = .emergency ∨
    s.trc.state = .lockout ∨ s.trc.state = .stalled) : lossNotice s = s := by
  rcases halted with state | state | state | state <;> simp only [lossNotice, state]

theorem lossNotice_standing {s : State}
    (standing : s.trc.state = .idle ∨ s.trc.state = .tripped ∨ s.trc.state = .suspended) :
    EndsAs s (disarmed s.trc) (lossNotice s) := by
  rcases standing with state | state | state <;> simp only [lossNotice, state] <;> exact endsAs_tractionEnd rfl rfl

/-- Under way it begins the failsafe stop. -/
theorem lossNotice_moving {s : State} (moving : s.trc.state = .running ∨ s.trc.state = .reversing) :
    EndsAs s (failsafeEntered (disarmed s.trc)) (lossNotice s) := by
  have kept : (failsafeEntered (disarmed s.trc)).published = s.trc.published ∧
      (failsafeEntered (disarmed s.trc)).outstanding = s.trc.outstanding := by
    simp only [failsafeEntered]
    split <;> exact ⟨rfl, rfl⟩
  obtain ⟨published, outstanding⟩ := kept
  rcases moving with state | state <;> simp only [lossNotice, state] <;>
    exact endsAs_tractionEnd published outstanding

/-- A failsafe stop with V above 0: the open-loop duty, and neither timer runs. -/
theorem ended_failsafeEntered {s : State} (moving : s.trc.state = .running ∨ s.trc.state = .reversing)
    (way : 0 < s.trc.ramp) :
    ended s (failsafeEntered (disarmed s.trc)) =
      { s.trc with state := .failsafe, armed := false, step := 0, target := 0
                   duty := min (s.trc.ramp / 64) (min 1023 s.trc.dcap), integral := 0, load := 0, loaded := false
                   bemfTimer := none, stallTimer := none } := by
  have under : s.trc.ramp ≠ 0 := Nat.ne_of_gt way
  rcases moving with state | state <;>
    simp [ended, failsafeEntered, disarmed, openLoop, vint, dutyBound, bemfTested, stallTested, state, under]

/-- A failsafe stop with V 0 is over at once. -/
theorem ended_failsafeOver {s : State} (moving : s.trc.state = .running ∨ s.trc.state = .reversing)
    (still : s.trc.ramp = 0) :
    ended s (failsafeEntered (disarmed s.trc)) =
      { s.trc with state := .idle, armed := false, step := 0, target := 0, duty := 0, integral := 0, speed := 0
                   load := 0, loaded := false, bemfTimer := none, stallTimer := none, drive := s.trc.stated } := by
  rcases moving with state | state <;>
    simp [ended, failsafeEntered, disarmed, rampStopped, bemfTested, stallTested, state, still]

/-! ### The command-loss timer's expiry (R29) -/

/-- DSP acts and publishes C4 if it changed, and then notifies TRC if LOSS_ACTION is STOP. -/
theorem exec_commandLossTimerExpiry {s : State} (run : running s = true) (timer : s.dsp.lossTimer ≠ none) :
    let s1 := (if s.dsp.signalLost then s else publish s (.signalLost true)).setDsp
      { lossTimer := none, signalLost := true }
    s1.trc = s.trc ∧
      exec .commandLossTimerExpiry s = .next (fnuSettle (if s.lossStops then lossNotice s1 else s1)) := by
  intro s1
  have acted : signalSet (s.setDsp { s.dsp with lossTimer := none }) = s1 := by
    cases lost : s.dsp.signalLost with
    | true => simp [signalSet, s1, lost]
    | false =>
      simp only [signalSet, s1, setDsp_dsp, lost, Bool.false_eq_true, if_false]
      rfl
  have stops : s1.lossStops = s.lossStops := by
    have tbs : s1.tbs = s.tbs := by
      simp only [s1]
      split <;> rfl
    rw [State.lossStops, State.lossStops, setting1, setting1, tbs]
  refine ⟨?_, (settled_running run).trans ?_⟩
  · simp only [s1]
    split <;> rfl
  · simp only [lossExpiry, Option.isSome_iff_ne_none.mpr timer, if_true, acted, stops]

/-- Settles O17. -/
theorem commandLossExpires : Obligations.CommandLossExpires := by
  unfold Obligations.CommandLossExpires
  intro s run timer s1
  obtain ⟨trc, acts⟩ := exec_commandLossTimerExpiry run timer
  change s1.trc = s.trc at trc
  change exec _ s = .next (fnuSettle (if s.lossStops then lossNotice s1 else s1)) at acts
  clear_value s1
  rw [← trc]
  refine ⟨fun continues => ?_, fun stops => ?_⟩
  · simpa [continues] using acts
  · rw [if_pos stops] at acts
    refine ⟨fun halted => ?_, fun standing => ?_, fun moving way => ?_, fun moving still => ?_⟩
    · rw [acts, lossNotice_halted halted]
    · obtain ⟨event, p, o, ends⟩ := lossNotice_standing standing
      refine ⟨_, acts, event, ?_⟩
      simp only [ends]
      exact ⟨rfl, rfl, rfl, rfl, rfl, rfl, rfl⟩
    · obtain ⟨event, p, o, ends⟩ := lossNotice_moving moving
      refine ⟨_, acts, event, ?_⟩
      rw [ends, ended_failsafeEntered moving way]
    · obtain ⟨event, p, o, ends⟩ := lossNotice_moving moving
      refine ⟨_, acts, event, ?_⟩
      rw [ends, ended_failsafeOver moving still]

/-! ### The stated direction inverted (R32, R99) -/

/-- TRC with its stated direction inverted: armed, the state goes by Table 5-3, as at a drive command of the same step. -/
theorem statedInverted_trc (s : State) (step : s.trc.step ≤ 240) :
    (statedInverted s).trc.stated = dirInverted s.trc.stated ∧ (statedInverted s).trc.step = s.trc.step ∧
      (statedInverted s).trc.armed = s.trc.armed ∧ (statedInverted s).trc.ramp = s.trc.ramp ∧
      (statedInverted s).trc.drive = (if s.trc.ramp = 0 then dirInverted s.trc.stated else s.trc.drive) ∧
      (s.trc.armed = true → s.trc.state = .running → 0 < s.trc.ramp → s.trc.stated = s.trc.drive →
        (statedInverted s).trc.state = .reversing) ∧
      (s.trc.armed = false → (statedInverted s).trc.state = s.trc.state) := by
  by_cases armed : s.trc.armed = true
  · obtain ⟨-, p, o, trc⟩ := driveArmed_ends s s.trc.step (dirInverted s.trc.stated)
    rw [statedInverted, if_pos armed, trc]
    refine ⟨rfl, Nat.min_eq_right step, rfl, rfl, rfl, fun _ state way agree => ?_, fun disarmed => ?_⟩
    · have turned : dirInverted s.trc.drive ≠ s.trc.drive := by cases s.trc.drive <;> decide
      simp [ended, driveState, driveTaken, state, way, agree, turned]
    · exact absurd armed (by simp [disarmed])
  · obtain ⟨-, p, o, trc⟩ := endsAs_tractionEnd (s := s) (t := { s.trc with stated := dirInverted s.trc.stated }) rfl rfl
    rw [statedInverted, if_neg armed, trc]
    exact ⟨rfl, rfl, rfl, rfl, rfl, fun armed' => absurd armed' armed, fun _ => rfl⟩

/-! ### The installation of an address table (R32, R45) -/

/-- A commit of the open table that its content allows installs it and begins its nonvolatile write. -/
theorem exec_cfgCommit_accepted {s : State} {f : Frame} {rest : List Frame} {via : Via} {t : TableId}
    (handed : HandedOn s f rest via) (kind : frameKind f = 8) (idle : s.tbs.writing = none)
    (opened : s.tbs.openTable = some t) (sound : commitOffence t (s.tbs.edit.take (tableSize t)) = none) :
    exec .cfgCommit s = .next (fnuSettle (offerReply (tableCommitted (frameTaken s f rest) t)
      (resultFrame s.primaryAddress 8 .accepted (checkWord (editContent s.tbs t))))) := by
  obtain ⟨⟨run, inbound⟩, via_⟩ := handed
  have committed : cfgCommit (frameTaken s f rest) =
      (tableCommitted (frameTaken s f rest) t, .result .accepted (checkWord (editContent s.tbs t))) := by
    simp [cfgCommit, idle, opened, sound]
  refine (settled_running run).trans ?_
  rw [dispatch_handed inbound (decide_eq_true kind) via_, handCommit, committed, answered, primaryAddress_frameTaken]
  rfl

/-- What the commit of an address table leaves: its installation in a state with the new table, beside the tables. -/
theorem tableCommitted_address (s : State) :
    let b := activePut s .address (s.tbs.edit.take 48)
    SameBut [.tbs, .store] s b ∧
      SameBut [.tbs, .store] (addressInstalled b (s.entry (ownerEntry s))) (tableCommitted s .address) := by
  refine ⟨fun p hp => ?_, fun p hp => ?_⟩
  · cases p <;> simp_all [partSame]
  · cases p <;> simp_all [partSame, tableCommitted, tableInstalled, ownerInstalls, editContent, commitContent, tableSize]

/-- The installation goes by the owner before and after (R32). -/
theorem addressInstalled_of_owner (s : State) (old : AddressEntry) :
    let new := s.entry (ownerEntry s)
    (isConsist old ≠ isConsist new ∨ old.address ≠ new.address → addressInstalled s old = lossRestart s) ∧
      (isConsist old = isConsist new → old.address = new.address →
        (isConsist new = false ∨ old.reversed = new.reversed → addressInstalled s old = s) ∧
          (isConsist new = true → old.reversed ≠ new.reversed → addressInstalled s old = statedInverted s)) := by
  intro new
  refine ⟨fun changes => ?_, fun kind address => ⟨fun reversed => ?_, fun consist reversed => ?_⟩⟩
  · exact if_pos (by simpa [ownerChanges] using changes)
  all_goals
    have stays : ¬ownerChanges old new = true := by simp [ownerChanges, kind, address]
    refine (if_neg stays).trans ?_
  · exact if_neg (by rcases reversed with h | h <;> simp [reversedChanges, new, h])
  · exact if_pos (by simp [reversedChanges, consist, reversed, new])

/-- Settles O23. -/
theorem addressTableInstalls : Obligations.AddressTableInstalls := by
  unfold Obligations.AddressTableInstalls
  intro s f rest via old new handed kind idle opened sound hold hnew s0
  have tbs : s0.tbs = s.tbs := by simp [s0]
  have dsp : s0.dsp = s.dsp := by simp [s0]
  have trc : s0.trc = s.trc := by simp [s0]
  have acts : exec .cfgCommit s = .next (fnuSettle (offerReply (tableCommitted s0 .address)
      (resultFrame s.primaryAddress 8 .accepted (sumBytes (s.tbs.edit.take 48) % 65536)))) :=
    exec_cfgCommit_accepted handed kind idle opened sound
  have owner : s0.entry (ownerEntry s0) = old := by rw [hold, ownerEntry_congr tbs, State.entry, State.entry, tbs]
  clear_value s0
  obtain ⟨before, after⟩ := tableCommitted_address s0
  rw [owner, tbs] at after
  rw [tbs] at before
  have time : (activePut s0 .address (s.tbs.edit.take 48)).lossTime = s.lossTime := by
    simp [State.lossTime, setting1, activePut, tablePut, tbs]
  have ⟨changes, stays⟩ := addressInstalled_of_owner (activePut s0 .address (s.tbs.edit.take 48)) old
  have after_owner : (activePut s0 .address (s.tbs.edit.take 48)).entry
      (ownerEntry (activePut s0 .address (s.tbs.edit.take 48))) = new := hnew.symm
  rw [after_owner] at changes stays
  clear after_owner
  generalize activePut s0 .address (s.tbs.edit.take 48) = b at before after time changes stays

  have keptDsp : b.dsp = s.dsp := (before .dsp (by simp)).trans dsp
  have keptTrc : b.trc = s.trc := (before .trc (by simp)).trans trc
  refine ⟨tableCommitted s0 .address, acts, fun h => ?_, fun kind address sense => ?_,
    fun was is address turned step => ?_⟩
  · rw [changes h] at after
    refine ⟨?_, ?_⟩
    · rw [after .dsp (by simp), lossRestart, setDsp_dsp, keptDsp, time]
    · refine sameBut_trans (sameBut_mono before (by simp)) (sameBut_trans ?_ (sameBut_mono after (by simp)))
      intro p hp
      cases p <;> first | rfl | simp at hp
  · rw [(stays kind address).1 sense] at after
    exact sameBut_trans before after
  · rw [(stays (was.trans is.symm) address).2 is turned] at after
    have inverted : (tableCommitted s0 .address).trc = (statedInverted b).trc := after .trc (by simp)
    have same : (tableCommitted s0 .address).dsp = s.dsp := by
      rw [after .dsp (by simp), ← keptDsp]
      simp
    rw [inverted, ← keptTrc]
    exact ⟨same, statedInverted_trc b (by rwa [keptTrc])⟩

end Sys2Proof.Laws
end

section
/-!
PROOFS. The functions that a FUNC sets (R27, R56), and the bytes of the status record (R35).
-/
namespace Sys2Proof.Laws

open Sys2Proof.Machine

/-! ### The functions that a FUNC sets (R27, R56) -/

/-- The function at place `b` of a group given its state, if it lies in the window. -/
def functionGiven (group states low high : Nat) (fs : BitVec 64) (b : Nat) : BitVec 64 :=
  let n := 8 * group + b
  if low ≤ n && n ≤ high then
    (if states / 2 ^ b % 2 = 1 then fs ||| BitVec.twoPow 64 n else fs &&& ~~~(BitVec.twoPow 64 n))
  else fs

theorem functionsSet_eq (fs : BitVec 64) (group states low high : Nat) :
    functionsSet fs group states low high = (List.range 8).foldl (functionGiven group states low high) fs := rfl

theorem getLsbD_functionGiven (fs : BitVec 64) (group states low high b : Nat) {n : Nat} (hn : n < 64) :
    (functionGiven group states low high fs b).getLsbD n =
      if n = 8 * group + b ∧ low ≤ n ∧ n ≤ high then states.testBit b else fs.getLsbD n := by
  have bit : states.testBit b = decide (states / 2 ^ b % 2 = 1) := Nat.testBit_eq_decide_div_mod_eq
  by_cases here : n = 8 * group + b
  · subst here
    simp only [functionGiven, bit]
    (repeat' split) <;> simp_all
  · simp only [functionGiven, here, false_and, if_false]
    (repeat' split) <;> simp [here, hn]

/-- The places of a group are given one after another, each its own function. -/
theorem getLsbD_functionsGiven (fs : BitVec 64) (group states low high : Nat) {m n : Nat} (hm : m ≤ 8) (hn : n < 64) :
    ((List.range m).foldl (functionGiven group states low high) fs).getLsbD n =
      if n / 8 = group ∧ n % 8 < m ∧ low ≤ n ∧ n ≤ high then states.testBit (n % 8) else fs.getLsbD n := by
  induction m with
  | zero => simp
  | succ m ih =>
    rw [List.range_succ, List.foldl_append, List.foldl_cons, List.foldl_nil, getLsbD_functionGiven _ _ _ _ _ _ hn,
      ih (by omega)]
    by_cases here : n = 8 * group + m
    · obtain ⟨inGroup, place⟩ : n / 8 = group ∧ n % 8 = m := by omega
      simp only [here.symm, true_and, inGroup, place, Nat.lt_irrefl, Nat.lt_succ_self, false_and, and_false, if_false]
    · have place : n / 8 = group ∧ n % 8 < m + 1 ↔ n / 8 = group ∧ n % 8 < m := by omega
      simp only [here, false_and, if_false, ← and_assoc, place]

/-- R27: a function of the group that lies in the window has its bit, and every other stays. -/
theorem getLsbD_functionsSet (fs : BitVec 64) (group states low high : Nat) {n : Nat} (hn : n < 64) :
    (functionsSet fs group states low high).getLsbD n =
      if n / 8 = group ∧ low ≤ n ∧ n ≤ high then states.testBit (n % 8) else fs.getLsbD n := by
  have place : n % 8 < 8 := Nat.mod_lt n (by omega)
  rw [functionsSet_eq, getLsbD_functionsGiven fs group states low high (Nat.le_refl 8) hn]
  simp only [place, true_and]

theorem functionsHanded_functions (s : State) (group states low high : Nat) :
    (functionsHanded s group states low high).fnu.functions = functionsSet s.fnu.functions group states low high := by
  simp only [functionsHanded]
  split
  · next same => exact same.symm
  · simp

theorem exec_func_handed {s : State} {f : Frame} {rest : List Frame} {k : Nat} (handed : HandedOn s f rest (.entry k))
    (kind : frameKind f = 2) :
    exec .func s = .next (fnuSettle (functionsHanded (frameTaken s f rest) (byteAt (framePayload f) 0)
      (byteAt (framePayload f) 1) (s.entry k).low (s.entry k).high)) := by
  obtain ⟨⟨run, inbound⟩, via⟩ := handed
  have tbs : (frameTaken s f rest).tbs = s.tbs := by simp
  refine (settled_running run).trans ?_
  rw [dispatch_handed inbound (decide_eq_true kind) via, handFunc, State.entry, State.entry, tbs]

/-- Settles O27. -/
theorem funcSetsTheWindow : Obligations.FuncSetsTheWindow := by
  unfold Obligations.FuncSetsTheWindow
  intro s f rest k handed kind
  refine ⟨_, exec_func_handed handed kind, fun p hp => ?_, by simp, fun n hn => ?_⟩
  · cases p <;> simp_all [partSame]
  · rw [fnuSettle_functions, functionsHanded_functions, getLsbD_functionsSet _ _ _ _ _ hn]
    simp

/-! ### The bits and halves of a byte -/

theorem bitAt_iff (b : List Byte) (i n : Nat) : bitAt b i n = decide (byteAt b i / 2 ^ n % 2 = 1) := by
  rw [bitAt, byteAt, BitVec.getLsbD, Nat.testBit_eq_decide_div_mod_eq]

/-- The two halves of a byte. -/
theorem fieldAt_halves {b : List Byte} {i high low : Nat} (eq : byteAt b i = (high * 16 + low) % 256) (hh : high < 16)
    (hl : low < 16) : fieldAt b i 4 4 = high ∧ fieldAt b i 0 4 = low := by
  simp only [fieldAt, eq]
  omega

theorem flagBit_eq (b : Bool) (n : Nat) : flagBit b n = b.toNat * 2 ^ n := by cases b <;> simp [flagBit]

/-- The bit of a byte that holds a flag at its weight. -/
theorem bitAt_of_flag {b : List Byte} {i n : Nat} {flag : Bool} (h : byteAt b i / 2 ^ n % 2 = flag.toNat) :
    bitAt b i n = flag := by
  rw [bitAt_iff, h]
  cases flag <;> rfl

/-- Four flags in the low half of a byte. -/
theorem bitAt_fourFlags {b : List Byte} {i : Nat} {p q r s : Bool}
    (eq : byteAt b i = (flagBit p 0 + flagBit q 1 + flagBit r 2 + flagBit s 3) % 256) :
    bitAt b i 0 = p ∧ bitAt b i 1 = q ∧ bitAt b i 2 = r ∧ bitAt b i 3 = s ∧ fieldAt b i 4 4 = 0 := by
  simp only [flagBit_eq] at eq
  have := p.toNat_le
  have := q.toNat_le
  have := r.toNat_le
  have := s.toNat_le
  refine ⟨bitAt_of_flag ?_, bitAt_of_flag ?_, bitAt_of_flag ?_, bitAt_of_flag ?_, ?_⟩ <;> simp only [fieldAt, eq] <;> omega

/-- Three flags at the top of a byte, and a code of three bits at its foot. -/
theorem bitAt_threeFlags {b : List Byte} {i low : Nat} {p q r : Bool}
    (eq : byteAt b i = (flagBit p 7 + flagBit q 6 + flagBit r 5 + low) % 256) (hl : low < 8) :
    bitAt b i 7 = p ∧ bitAt b i 6 = q ∧ bitAt b i 5 = r ∧ fieldAt b i 3 2 = 0 ∧ fieldAt b i 0 3 = low := by
  simp only [flagBit_eq] at eq
  have := p.toNat_le
  have := q.toNat_le
  have := r.toNat_le
  refine ⟨bitAt_of_flag ?_, bitAt_of_flag ?_, bitAt_of_flag ?_, ?_, ?_⟩ <;> simp only [fieldAt, eq] <;> omega

/-! ### The codes of the status record (R35) -/

theorem powerCode_lt (p : PowerState) : powerCode p < 16 := by cases p <;> decide
theorem activeCode_lt (a : Active) : activeCode a < 16 := by cases a <;> decide
theorem tractionCode_lt (t : Traction) : tractionCode t < 16 := by cases t <;> decide
theorem smokeCode_lt (t : SmokeState) : smokeCode t < 8 := by cases t <;> decide
theorem resetCode_lt (k : ResetKind) : resetCode k < 256 := by cases k <;> decide

/-- A two-byte value of the record. -/
theorem word16At_of_bytes {b : List Byte} {i n : Nat} (high : byteAt b i = n / 256 % 256)
    (low : byteAt b (i + 1) = n % 256) (hn : n < 65536) : word16At b i = n := by
  simp only [word16At, high, low]
  omega

/-- Settles O19. -/
theorem statusRecordLayout : Obligations.StatusRecordLayout := by
  unfold Obligations.StatusRecordLayout
  intro s shed step ramp applied speed load errors results r
  have byte (i n : Nat) (h : r.getD i 0 = toByte n) : byteAt r i = n % 256 := by rw [byteAt, h, toByte_toNat]
  have temperature : resultOf s.msq .boardT ≤ 4095 := by
    simp only [resultOf, List.getD_eq_getElem?_getD]
    cases h : s.msq.results[channelNumber .boardT]? with
    | none => simp
    | some c => exact results c (List.mem_of_getElem? h)
  have hv : vint s.trc < 65536 := by
    rw [vint]
    omega
  obtain ⟨power, active⟩ := fieldAt_halves (byte 0 _ rfl) (powerCode_lt _) (activeCode_lt _)
  obtain ⟨level, traction⟩ := fieldAt_halves (byte 1 _ rfl) (Nat.lt_of_le_of_lt shed (by decide)) (tractionCode_lt _)
  obtain ⟨armed, drive, cam, spare, smoke⟩ := bitAt_threeFlags (byte 2 _ rfl) (smokeCode_lt _)
  obtain ⟨truncated, dropped, reply, relay, linkSpare⟩ := bitAt_fourFlags (byte 12 _ rfl)
  obtain ⟨defaulted, underrun, dry, lockout, faultSpare⟩ := bitAt_fourFlags (byte 13 _ rfl)
  refine ⟨rfl, power.trans ?_, active.trans ?_, level, traction.trans ?_, armed, drive, cam, spare, smoke.trans ?_,
    ?_, ?_, ?_, ?_, ?_, ?_, truncated, dropped, reply, relay, linkSpare, defaulted, underrun, dry, lockout, faultSpare,
    ?_, ?_⟩
  · rfl
  · rfl
  · rfl
  · rfl
  · exact (byte 3 _ rfl).trans (Nat.mod_eq_of_lt (by omega))
  · exact word16At_of_bytes (byte 4 _ rfl) (byte 5 _ rfl) hv
  · exact word16At_of_bytes (byte 6 _ rfl) (byte 7 _ rfl) (by omega)
  · exact word16At_of_bytes (byte 8 _ rfl) (byte 9 _ rfl) (by omega)
  · exact (byte 10 _ rfl).trans (Nat.mod_eq_of_lt (by omega))
  · exact (byte 11 _ rfl).trans (Nat.mod_eq_of_lt (resetCode_lt _))
  · exact (byte 14 _ rfl).trans (Nat.mod_eq_of_lt (by omega))
  · exact (byte 15 _ rfl).trans (Nat.mod_eq_of_lt (by omega))

end Sys2Proof.Laws
end

section
/-!
PROOFS. Resets: the bytes that one interrupts (R148), the taking of one (R33, R54, R190, R191), and the release (R53, R182).
-/
namespace Sys2Proof.Laws

open Sys2Proof.Machine

/-! ### The bytes that a reset interrupts (R148) -/

theorem and_or_self (x y : Byte) : x &&& (x ||| y) = x := by
  ext i h
  cases hx : x[i] <;> simp [hx]

theorem and_and_or_self (x d y : Byte) : x &&& d &&& (x &&& (d ||| y)) = x &&& d := by
  ext i h
  cases hx : x[i] <;> cases hd : d[i] <;> simp [hx, hd]

theorem eraseCutShort_cons (c : Host.Cell) (rest : List Host.Cell) (sector k : Nat) :
    eraseCutShort (c :: rest) sector k =
      (if inSector sector c.1 then cellCutShort sector k c else some c).toList ++ eraseCutShort rest sector k := by
  rw [eraseCutShort, List.filterMap_cons]
  split
  · next none => rw [none]; rfl
  · next some => rw [some]; rfl

theorem readCell_eraseCutShort {lo : Nat} {m : List Host.Cell} (sector k n : Nat) (h : cellsAbove lo m = true) :
    readCell (eraseCutShort m sector k) n =
      if inSector sector n then readCell m n ||| Config.interruptedBits (k + (n - 4096 * sector)) else readCell m n := by
  have erased (v : Byte) : erasedByte ||| v = erasedByte := BitVec.allOnes_or
  induction m generalizing lo with
  | nil => simp [eraseCutShort, readCell, erased]
  | cons c rest ih =>
    simp only [cellsAbove, Bool.and_eq_true, decide_eq_true_eq] at h
    obtain ⟨-, above⟩ := h
    have ih := ih above
    by_cases within : inSector sector c.1 = true
    · by_cases gone : c.2 ||| Config.interruptedBits (k + (c.1 - 4096 * sector)) = erasedByte
      · have unlisted : (if inSector sector c.1 then cellCutShort sector k c else some c) = none := by
          simp [within, cellCutShort, gone]
        rw [eraseCutShort_cons, unlisted, Option.toList_none, List.nil_append, ih, readCell]
        by_cases here : c.1 = n
        · subst here
          rw [readCell_below above (by omega), if_pos within, if_pos within, if_pos rfl, gone, erased]
        · rw [if_neg here]
      · have kept : (if inSector sector c.1 then cellCutShort sector k c else some c) =
            some (c.1, c.2 ||| Config.interruptedBits (k + (c.1 - 4096 * sector))) := by
          simp [within, cellCutShort, gone]
        rw [eraseCutShort_cons, kept, Option.toList_some, List.singleton_append, readCell, readCell, ih]
        by_cases here : c.1 = n
        · subst here
          rw [if_pos rfl, if_pos within, if_pos rfl]
        · rw [if_neg here, if_neg here]
    · have kept : (if inSector sector c.1 then cellCutShort sector k c else some c) = some c := if_neg within
      rw [eraseCutShort_cons, kept, Option.toList_some, List.singleton_append, readCell, readCell, ih]
      by_cases here : c.1 = n
      · subst here
        rw [if_pos rfl, if_neg within, if_pos rfl]
      · rw [if_neg here, if_neg here]

theorem readCell_programCutShort {m : List Host.Cell} {a : Nat} {data : List Byte} (k n : Nat)
    (h : cellsAbove 0 m = true) :
    readCell (programCutShort m a data k) n =
      if a ≤ n ∧ n < a + data.length then
        readCell m n &&& (data.getD (n - a) 0 ||| Config.interruptedBits (k + (n - a)))
      else readCell m n := by
  induction data generalizing m a k with
  | nil => exact (if_neg (by simp only [List.length_nil]; omega)).symm
  | cons d rest ih =>
    simp only [programCutShort, List.length_cons]
    rw [ih _ (cellsAbove_writeCell _ h (by omega)), readCell_writeCell _ _ h]
    by_cases here : n = a
    · subst here
      simp
    · rw [if_neg here]
      by_cases later : a + 1 ≤ n ∧ n < a + 1 + rest.length
      · obtain ⟨i, rfl⟩ : ∃ i, n = a + 1 + i := ⟨n - (a + 1), by omega⟩
        rw [if_pos later, if_pos (by omega), show a + 1 + i - a = i + 1 by omega, List.getD_cons_succ,
          show a + 1 + i - (a + 1) = i by omega, show k + 1 + i = k + (i + 1) by omega]
      · rw [if_neg later, if_neg (by omega)]

/-! ### The taking of a reset (R191) -/

theorem resetTaken_samples (s : State) (w : Nat) (phase : Phase) :
    (resetTaken s w phase).samples = (sampleInterrupted s).samples := by
  simp only [resetTaken, blocksReset, restoreInterrupted]
  split <;> rfl

theorem resetTaken_eq (s : State) (w : Nat) (phase : Phase) :
    resetTaken s w phase = { s with
      cli := cliReset, dsp := dspReset, tbs := tbsReset s.tbs.active s.tbs.defaulted, fnu := fnuReset, trc := trcReset
      mbr := mbrReset, msq := msqReset, cam := camReset, snd := sndReset, smk := smkReset, lmp := lmpReset
      ppm := ppmReset s.ppm.track s.ppm.battery s.ppm.cause phase
      store := (resetTaken s w phase).store, samples := (resetTaken s w phase).samples
      free := (resetTaken s w phase).free } := by
  simp only [resetTaken, blocksReset, restoreInterrupted]
  split <;> simp

theorem resetTaken_spec {s : State} (wf : memoryWf s.samples = true) (w : Nat) (phase : Phase) :
    ResetTaken s w phase (resetTaken s w phase) := by
  have above : cellsAbove 0 s.samples = true := ((memoryWf_iff _).mp wf).1
  refine ⟨resetTaken_eq s w phase, ?_⟩
  rw [resetTaken_samples, resetTaken_store]
  refine ⟨fun idle => ?_, fun sector erasing a => ?_, fun address data programming a => ?_, fun other => ?_,
    fun restoring n x at_ => ?_⟩
  · simp only [sampleInterrupted, idle]
  · have inside : inSector sector a = true ↔ 4096 * sector ≤ a ∧ a ≤ 4096 * sector + 4095 := by
      simp only [inSector, Bool.and_eq_true, decide_eq_true_eq]
      omega
    simp only [sampleInterrupted, erasing, setFree_samples, setSamples_samples, readCell_eraseCutShort _ _ _ above, inside]
    split
    · exact and_or_self _ _
    · rfl
  · simp only [sampleInterrupted, programming, setFree_samples, setSamples_samples, readCell_programCutShort _ _ above]
    split
    · refine ⟨?_, ?_⟩
      · rw [← BitVec.and_assoc, BitVec.and_self]
      · exact and_and_or_self _ _ _
    · rfl
  · exact if_neg other
  · rw [if_pos restoring]
    exact tableGet_restoreCutShort _ _ at_

/-! ### A RESET dispatched (R33) -/

/-- What CLI holds does not outlive a reset. -/
theorem resetTaken_setCli (s : State) (c : Cli) (w : Nat) (phase : Phase) :
    resetTaken (s.setCli c) w phase = resetTaken s w phase := by
  have memory : sampleInterrupted (s.setCli c) = (sampleInterrupted s).setCli c := by
    cases writing : s.snd.writeState <;> simp only [sampleInterrupted, setCli_snd, writing] <;> rfl
  simp only [resetTaken, memory, restoreInterrupted, setCli_ppm]
  split <;> rfl

theorem resetTaken_frameTaken (s : State) (f : Frame) (rest : List Frame) (w : Nat) (phase : Phase) :
    resetTaken (frameTaken s f rest) w phase = resetTaken s w phase := by
  obtain ⟨c, eq⟩ : ∃ c, frameTaken s f rest = s.setCli c := by
    simp only [frameTaken]
    split <;> exact ⟨_, rfl⟩
  rw [eq, resetTaken_setCli]

/-- A RESET handed on is taken if it is confirmed with the PRIMARY address, and refused otherwise. -/
theorem handReset_frameTaken (s : State) (f : Frame) (rest : List Frame) (via : Via) (phase : Phase) :
    handReset phase (frameTaken s f rest) f via =
      if word16At (framePayload f) 0 = s.primaryAddress then resetTaken s 0 phase
      else offerReply (frameTaken s f rest) (resultFrame s.primaryAddress 12 .badConfirm 0) := by
  simp only [handReset, primaryAddress_frameTaken, resetTaken_frameTaken, answered, answerFrame]

section
variable {s : State} {f : Frame} {rest : List Frame} {via : Via} (handed : HandedOn s f rest via)
include handed

theorem exec_resetNormal_handed (row : isKindBut 12 2 1 f = true) :
    exec .resetNormal s = .next (handReset (.held .command) (frameTaken s f rest) f via) := by
  obtain ⟨⟨run, inbound⟩, via_⟩ := handed
  exact (live_running run).trans (by rw [dispatch_handed inbound row via_])

theorem exec_resetFactory_handed (row : isKindBut 12 2 0 f = true) :
    exec .resetFactory s = .next (handReset .restoring (frameTaken s f rest) f via) := by
  obtain ⟨⟨run, inbound⟩, via_⟩ := handed
  exact (live_running run).trans (by rw [dispatch_handed inbound row via_])

end

/-! ### The release (R53, R182, R191) -/

/-- An event that changes no condition, no direction and no demand ends at TRC. -/
theorem tractionEnd_quiet {s : State} {t : Trc} (conditions : tractionConditions (ended s t) = t.published)
    (drive : (ended s t).drive = s.trc.drive) (demand : demandChanged (s.setTrc (ended s t)) = false) :
    tractionEnd s.trc false false false (s.setTrc t) = s.setTrc (ended s t) := by
  have tested : tractionEnd s.trc false false false (s.setTrc t) =
      handDemand (publishTraction s.trc.drive (s.setTrc (ended s t))) false := by
    by_cases same : t.state = s.trc.state
    · simp [tractionEnd, followDirection_eq, ended, same]
      rfl
    · simp [tractionEnd, followDirection_eq, testBemfTimer_eq, testStall_eq, ended, same]
      rfl
  have unpublished : publishTraction s.trc.drive (s.setTrc (ended s t)) = s.setTrc (ended s t) :=
    if_neg (by simp [drive, conditions, show (ended s t).published = t.published from rfl])
  rw [tested, unpublished]
  exact if_neg (by simp [demand])

theorem tractionPower_init_reset {s : State} (trc : s.trc = trcReset) (mbr : s.mbr = mbrReset) :
    tractionPower s .init = s.setTrc { trcReset with state := .suspended } := by
  have stopped : ended s { rampStopped s.trc with state := .suspended } = { trcReset with state := .suspended } := by
    simp [ended, rampStopped, bemfTested, stallTested, trc, trcReset]
  rw [← stopped, tractionPower]
  refine tractionEnd_quiet ?_ ?_ ?_
  all_goals rw [stopped]
  · rw [trc]
    rfl
  · rw [trc]
  · rw [demandChanged, setTrc_mbr, mbr]
    rfl

theorem smokePower_init_reset {s : State} (smk : s.smk = smkReset) : smokePower s .init = s := by
  have same : s.setSmk smkReset = s := by rw [← smk]; rfl
  calc smokePower s .init = s.setSmk smkReset := by simp [smokePower, smk, smkReset, smokeRegulates, smokeFanAt, smokeEnd]
    _ = s := same

theorem soundPower_init_reset {s : State} (snd : s.snd = sndReset) : soundPower s .init = s := by
  have same : s.setSnd sndReset = s := by rw [← snd]; rfl
  calc soundPower s .init = s.setSnd sndReset := by simp [soundPower, snd, sndReset, engineWork, engineOn]
    _ = s := same

theorem lampsPower_init_reset {s : State} (lmp : s.lmp = lmpReset) : lampsPower s .init = s := by
  have same : s.setLmp lmpReset = s := by rw [← lmp]; rfl
  calc lampsPower s .init = s.setLmp lmpReset := by simp [lampsPower, lmp, lmpReset, lampsDark, lampDarkened, lampReset]
    _ = s := same

/-- INIT announced to blocks that are as a reset leaves them: TRC is SUSPENDED, and nothing else changes. -/
theorem announce_init_reset {s : State} (trc : s.trc = trcReset) (mbr : s.mbr = mbrReset) (smk : s.smk = smkReset)
    (snd : s.snd = sndReset) (lmp : s.lmp = lmpReset) :
    announce s .init = s.setTrc { trcReset with state := .suspended } := by
  have smoke (t : Trc) : smokePower (s.setTrc t) .init = s.setTrc t := smokePower_init_reset smk
  have sound (t : Trc) : soundPower (s.setTrc t) .init = s.setTrc t := soundPower_init_reset snd
  have lamps (t : Trc) : lampsPower (s.setTrc t) .init = s.setTrc t := lampsPower_init_reset lmp
  rw [announce, tractionPower_init_reset trc mbr, smoke, sound, lamps]

/-- A supply as the release finds it, by the voltage at its comparator (R182). -/
def foundSupply (s : State) (x : Supply) (volts : BitVec 12) : SupplyState :=
  if presenceLevel s x ≤ volts.toNat then
    { voltage := volts, present := true, qualification := .qualifying, fastReturn := false
      timer := some (qualificationTime x) }
  else { voltage := volts, present := false, qualification := .absent, timer := none, fastReturn := false }

/-- A supply that was reset is read, and starts to qualify if it is found present. -/
theorem presentQualifies_reset {s : State} {x : Supply} {v : SupplyState} (was : supplyOf s.ppm x = supplyReset v) :
    presentQualifies s x = setSupply s x (foundSupply s x v.voltage) := by
  have level (y : SupplyState) : supplyOf (setSupply s x y).ppm x = y := by cases x <;> rfl
  have twice (y z : SupplyState) : setSupply (setSupply s x y) x z = setSupply s x z := by cases x <;> rfl
  simp only [presentQualifies, comparatorReads, startQualifying, was, level, twice, supplyReset, readsPresent,
    foundSupply, decide_eq_true_eq]
  split <;> next h => simp [h]

/-- The release of a reset, whatever the blocks were before (R191). -/
theorem released_eq (s : State) (kind : ResetKind) :
    let t := released s kind
    t = { s with
      cli := cliReset, dsp := dspReset, tbs := tbsReset t.tbs.active t.tbs.defaulted, fnu := fnuReset
      trc := { trcReset with state := .suspended }, mbr := mbrReset
      msq := { msqReset with scanTimer := some (1000 * t.scanPeriod) }
      cam := camReset, snd := sndReset, smk := smkReset, lmp := lmpReset
      ppm := { ppmReset s.ppm.track s.ppm.battery kind .running with
               track := foundSupply t .track s.ppm.track.voltage
               battery := foundSupply t .battery s.ppm.battery.voltage } } := by
  intro t
  let u := scanStarted (blocksReset s (loadedTables s.store) (someDefaulted s.store) kind .running)
  have announced : announce u .init = u.setTrc { trcReset with state := .suspended } :=
    announce_init_reset rfl rfl rfl rfl rfl
  have found : t = setSupply (setSupply (u.setTrc { trcReset with state := .suspended }) .track
      (foundSupply u .track s.ppm.track.voltage)) .battery (foundSupply u .battery s.ppm.battery.voltage) := by
    change presentQualifies (presentQualifies (announce u .init) .track) .battery = _
    rw [announced, presentQualifies_reset (x := .track) (v := s.ppm.track) rfl,
      presentQualifies_reset (x := .battery) (v := s.ppm.battery) rfl]
    rfl
  rw [Nat.mul_comm 1000, found]
  rfl

theorem imagePasses_iff (t : TableId) (m : Image) : imagePasses t m = true ↔
    m.mark = false ∧ sumBytes m.bytes % 65536 = m.check ∧ contentValid t m.bytes = true := by
  rw [imagePasses, Bool.and_eq_true, Bool.and_eq_true, Bool.not_eq_true', decide_eq_true_eq, and_assoc, checkWord]

theorem someDefaulted_iff (m : PerTable Image) :
    someDefaulted m = true ↔ ∃ t ∈ tableIds, imagePasses t (tableGet m t) = false := by
  simp [someDefaulted]

/-- Settles O59. -/
theorem resetsAreTakenAndReleased : Obligations.ResetsAreTakenAndReleased := by
  unfold Obligations.ResetsAreTakenAndReleased
  refine ⟨fun s w wf => ?_, fun s f rest via wf handed kind => ?_, fun s => ⟨fun restoring => ?_, fun other => ?_,
    fun notHeld => ?_, fun kind held => ?_⟩⟩
  · exact ⟨_, _, rfl, resetTaken_spec wf _ _, rfl, resetTaken_spec wf _ _⟩
  · intro confirmed refused
    refine ⟨fun normal => ?_, fun factory => ?_⟩
    · have acts := exec_resetNormal_handed handed (isKindBut_of_ne kind (by omega))
      rw [handReset_frameTaken] at acts
      exact ⟨fun yes => ⟨_, by rw [acts, if_pos yes], resetTaken_spec wf _ _⟩, fun no => by rw [acts, if_neg no]⟩
    · have acts := exec_resetFactory_handed handed (isKindBut_of_ne kind (by omega))
      rw [handReset_frameTaken] at acts
      exact ⟨fun yes => ⟨_, by rw [acts, if_pos yes], resetTaken_spec wf _ _⟩, fun no => by rw [acts, if_neg no]⟩
  · change Host.Outcome.next (restoreDone s) = _
    simp only [restoreDone, restoring]
  · change Host.Outcome.next (restoreDone s) = _
    cases phase : s.ppm.phase with
    | restoring => exact absurd phase other
    | running | held => simp only [restoreDone, phase]
  · change Host.Outcome.next (resetReleased s) = _
    cases phase : s.ppm.phase with
    | held k => exact absurd phase (notHeld k)
    | running | restoring => simp only [resetReleased, phase]
  · obtain ⟨tbs, -⟩ := released_tables s kind
    refine ⟨released s kind, ?_, ?_, fun x _ => ?_, ?_, imagePasses_iff⟩
    · change Host.Outcome.next (resetReleased s) = _
      simp only [resetReleased, held]
    · exact released_eq s kind
    · rw [tbs]
      exact tableGet_loadedTables s.store x
    · rw [tbs]
      exact someDefaulted_iff s.store

end Sys2Proof.Laws
end

section
/-!
PROOFS. The configuration requests at the edit buffer (R40 to R44) and the completion of the nonvolatile write (R52).
-/
namespace Sys2Proof.Laws

open Sys2Proof.Machine

/-! ### The ids of the tables (Table 3-1) -/

theorem tableOfId_lt {id : Nat} {t : TableId} (h : tableOfId id = some t) : id < 6 := by
  by_contra large
  obtain ⟨n, rfl⟩ : ∃ n, id = n + 6 := ⟨id - 6, by omega⟩
  cases h

theorem tableOfId_large {id : Nat} (h : 6 < id) : tableOfId id = none := by
  cases named : tableOfId id with
  | none => rfl
  | some t => exact absurd (tableOfId_lt named) (by omega)

/-! ### Each request by its tests -/

section
variable (b : Tbs)

theorem cfgOpen_badTable {id : Nat} (h : 6 < id) : cfgOpen b id = (b, .result .badTable 0) := if_pos h

theorem cfgOpen_readOnly : cfgOpen b 6 = (b, .result .readOnly 0) := rfl

/-- A table that can be opened: refused while a write runs, and opened otherwise (R40). -/
theorem cfgOpen_editable {id : Nat} {t : TableId} (h : tableOfId id = some t) :
    cfgOpen b id =
      if b.writing = none then (tableOpened b t, .result .accepted (tableSize t)) else (b, .result .busy 0) := by
  have small := tableOfId_lt h
  cases busy : b.writing <;> simp [cfgOpen, h, busy] <;> omega

/-- The edit buffer of a table just opened begins with its active copy. -/
theorem edit_tableOpened {t : TableId} (size : (tableGet b.active t).length = tableSize t) :
    (tableOpened b t).edit.take (tableSize t) = tableGet b.active t := by
  rw [tableOpened, splice, List.take_zero, List.nil_append, ← size, List.take_left]

theorem cfgPoint_open {t : TableId} (h : b.openTable = some t) (i : Nat) :
    cfgPoint b i =
      if tableSize t ≤ i then (b, .result .range 0) else ({ b with pointer := i }, .result .accepted i) := by
  simp only [cfgPoint, h]

theorem cfgWrite_open {t : TableId} (h : b.openTable = some t) (data : List Byte) :
    cfgWrite b data =
      if tableSize t < b.pointer + data.length then (b, .result .range 0)
      else
        ({ b with edit := splice b.edit b.pointer data, pointer := b.pointer + data.length },
          .result .accepted (b.pointer + data.length)) := by
  simp only [cfgWrite, h]

theorem cfgClose_open (h : b.openTable ≠ none) : cfgClose b = (tableClosed b, .result .accepted 0) := by
  obtain ⟨t, open_⟩ := Option.ne_none_iff_exists'.mp h
  simp only [cfgClose, open_]

theorem cfgRead_badTable {id : Nat} (h : 6 < id) (i n : Nat) : cfgRead b id i n = .result .badTable 0 := by
  have other : id ≠ 6 := by omega
  simp [cfgRead, sizeOfId, other, tableOfId_large h]

theorem cfgRead_identity (i n : Nat) :
    cfgRead b 6 i n = if 4 < i + n then .result .range 0 else .data 6 i (slice [0x2E, 0x0C, 0x30, 1] i n) := rfl

theorem cfgRead_editable {id : Nat} {t : TableId} (h : tableOfId id = some t) (i n : Nat) :
    cfgRead b id i n =
      if tableSize t < i + n then .result .range 0
      else .data id i (slice (if b.openTable = some t then b.edit else tableGet b.active t) i n) := by
  have other : id ≠ 6 := (tableOfId_lt h).ne
  simp [cfgRead, sizeOfId, readSource, other, h]

end

/-- The bytes put in stand from their index on, and every other byte stands as before. -/
theorem getD_splice {b new : List Byte} {i : Nat} (h : i ≤ b.length) (n : Nat) :
    (splice b i new).getD n 0 = if i ≤ n ∧ n < i + new.length then new.getD (n - i) 0 else b.getD n 0 := by
  have value := byteAt_splice (new := new) h n
  refine BitVec.eq_of_toNat_eq ?_
  split at value
  case isTrue within => rwa [if_pos within]
  case isFalse outside => rwa [if_neg outside]

/-! ### The frames of the requests -/

/-- The part once a request has been taken and answered: TBS and the answer are as the request leaves them. -/
def requested (s : State) (f : Frame) (rest : List Frame) (kind : Nat) (r : Tbs × Answer) : State :=
  offerReply ((frameTaken s f rest).setTbs r.1) (answerFrame s.primaryAddress kind r.2)

section
variable {s : State} {f : Frame} {rest : List Frame} {via : Via}

/-- A request that leaves TBS as it was only takes its frame and answers. -/
theorem requested_kept (kind : Nat) (a : Answer) :
    requested s f rest kind (s.tbs, a) = offerReply (frameTaken s f rest) (answerFrame s.primaryAddress kind a) := by
  have same : (frameTaken s f rest).setTbs s.tbs = frameTaken s f rest := by
    have tbs : (frameTaken s f rest).tbs = s.tbs := by simp
    rw [← tbs]
    rfl
  rw [requested, same]

variable (handed : HandedOn s f rest via)
include handed

/-- A request to TBS is taken, carried out, and answered with the PRIMARY Address. -/
theorem exec_request {i : Instr} {kind : Nat} {hand : State → Frame → Via → State} {request : Tbs → Tbs × Answer}
    (acts : exec i s = live (dispatch (isKind kind) hand) s)
    (hands : ∀ u, hand u f via = answered u (u.setTbs (request u.tbs).1) kind (request u.tbs).2)
    (h : frameKind f = kind) : exec i s = .next (requested s f rest kind (request s.tbs)) := by
  obtain ⟨⟨run, inbound⟩, via_⟩ := handed
  have tbs : (frameTaken s f rest).tbs = s.tbs := by simp
  rw [acts, live_running run, dispatch_handed inbound (decide_eq_true h) via_, hands, answered,
    primaryAddress_frameTaken, tbs, requested]

theorem exec_cfgOpen (h : frameKind f = 4) :
    exec .cfgOpen s = .next (requested s f rest 4 (cfgOpen s.tbs (byteAt (framePayload f) 0))) :=
  exec_request (request := fun b => cfgOpen b _) handed rfl (fun _ => rfl) h

theorem exec_cfgPoint (h : frameKind f = 6) :
    exec .cfgPoint s = .next (requested s f rest 6 (cfgPoint s.tbs (word16At (framePayload f) 0))) :=
  exec_request (request := fun b => cfgPoint b _) handed rfl (fun _ => rfl) h

theorem exec_cfgWrite (h : frameKind f = 5) :
    exec .cfgWrite s = .next (requested s f rest 5 (cfgWrite s.tbs (framePayload f))) :=
  exec_request (request := fun b => cfgWrite b _) handed rfl (fun _ => rfl) h

theorem exec_cfgClose (h : frameKind f = 9) :
    exec .cfgClose s = .next (requested s f rest 9 (cfgClose s.tbs)) :=
  exec_request handed rfl (fun _ => rfl) h

/-- A CFG_READ leaves TBS as it was. -/
theorem exec_cfgRead (h : frameKind f = 7) :
    let p := framePayload f
    exec .cfgRead s = .next (offerReply (frameTaken s f rest)
      (answerFrame s.primaryAddress 7 (cfgRead s.tbs (byteAt p 0) (word16At p 1) (byteAt p 3)))) := by
  intro p
  rw [← requested_kept]
  exact exec_request (request := fun b => (b, cfgRead b _ _ _)) handed rfl (fun _ => rfl) h

end

/-- A change to TBS alone. -/
theorem sameBut_setTbs (s : State) (b : Tbs) : SameBut [.tbs] s (s.setTbs b) := by
  intro p hp
  cases p <;> first | rfl | simp at hp

/-- Settles O20. -/
theorem openPointAndCloseFollowTheirTests : Obligations.OpenPointAndCloseFollowTheirTests := by
  unfold Obligations.OpenPointAndCloseFollowTheirTests
  refine ⟨fun s f rest via handed kind => ?_, fun s f rest via handed kind => ?_, fun s f rest via handed kind => ?_⟩
  · intro s0 id
    rw [exec_cfgOpen handed kind]
    refine ⟨fun large => ?_, fun identity => ?_, fun t named => ⟨fun busy => ?_, fun idle => ?_⟩⟩
    · rw [cfgOpen_badTable _ large, requested_kept]
      rfl
    · rw [show byteAt (framePayload f) 0 = 6 from identity, cfgOpen_readOnly, requested_kept]
      rfl
    · rw [cfgOpen_editable _ named, if_neg busy, requested_kept]
      rfl
    · rw [cfgOpen_editable _ named, if_pos idle]
      exact ⟨s0.setTbs (tableOpened s.tbs t), rfl, sameBut_setTbs _ _, rfl, edit_tableOpened _⟩
  · intro s0 i
    rw [exec_cfgPoint handed kind]
    refine ⟨fun closed => ?_, fun t opened => ⟨fun beyond => ?_, fun within => ?_⟩⟩
    · rw [cfgPoint, closed, requested_kept]
      rfl
    · rw [cfgPoint_open _ opened, if_pos beyond, requested_kept]
      rfl
    · rw [cfgPoint_open _ opened, if_neg (by omega)]
      rfl
  · intro s0
    rw [exec_cfgClose handed kind]
    refine ⟨fun closed => ?_, fun opened => ?_⟩
    · rw [cfgClose, closed, requested_kept]
      rfl
    · rw [cfgClose_open _ opened]
      rfl

/-- Settles O21. -/
theorem writeAndReadFollowTheirTests : Obligations.WriteAndReadFollowTheirTests := by
  unfold Obligations.WriteAndReadFollowTheirTests
  refine ⟨fun s f rest via handed kind size => ?_, fun s f rest via handed kind => ?_⟩
  · intro s0 data
    rw [exec_cfgWrite handed kind]
    refine ⟨fun closed => ?_, fun t opened => ⟨fun beyond => ?_, fun within => ?_⟩⟩
    · rw [cfgWrite, closed, requested_kept]
      rfl
    · rw [cfgWrite_open _ opened, if_pos beyond, requested_kept]
      rfl
    · have room : s.tbs.pointer + data.length ≤ s.tbs.edit.length := within.trans (by rw [size]; exact tableSize_le t)
      rw [cfgWrite_open _ opened, if_neg (Nat.not_lt.mpr within)]
      refine ⟨s0.setTbs _, rfl, sameBut_setTbs _ _, rfl, (length_splice room).trans size, fun n _ => ?_⟩
      exact getD_splice (Nat.le_of_add_right_le room) n
  · intro s0 id i n
    rw [exec_cfgRead handed kind]
    refine ⟨fun large => ?_, fun identity beyond => ?_, fun identity within => ?_,
      fun t named => ⟨fun beyond => ?_, fun within opened => ?_, fun within other => ?_⟩⟩
    · rw [cfgRead_badTable _ large]
      rfl
    · rw [show byteAt (framePayload f) 0 = 6 from identity, cfgRead_identity, if_pos beyond]
      rfl
    · rw [show byteAt (framePayload f) 0 = 6 from identity, cfgRead_identity, if_neg (Nat.not_lt.mpr within)]
      rfl
    · rw [cfgRead_editable _ named, if_pos beyond]
      rfl
    · rw [cfgRead_editable _ named, if_neg (Nat.not_lt.mpr within), if_pos opened]
      rfl
    · rw [cfgRead_editable _ named, if_neg (Nat.not_lt.mpr within), if_neg other]
      rfl

/-! ### The completion of the nonvolatile write (R52) -/

theorem nvCompleted_writing {s : State} {t : TableId} (h : s.tbs.writing = some t) :
    nvCompleted s = (s.setTbs { s.tbs with writing := none }).setStore
      (tablePut s.store t (goodImage (tableGet s.tbs.active t))) := by
  simp only [nvCompleted, h]

/-- An image of valid content passes the tests of start-up (R53). -/
theorem imagePasses_goodImage {t : TableId} {b : List Byte} (valid : contentValid t b = true) :
    imagePasses t (goodImage b) = true := (imagePasses_iff t _).mpr ⟨rfl, rfl, valid⟩

/-- Settles O25. -/
theorem nonvolatileWriteCompletes : Obligations.NonvolatileWriteCompletes := by
  unfold Obligations.NonvolatileWriteCompletes
  intro s t run writing
  have acts : exec .nvWriteComplete s = .next (nvCompleted s) := live_running run
  rw [nvCompleted_writing writing] at acts
  refine ⟨_, acts, fun p hp => ?_, rfl, rfl, fun valid => ?_⟩
  · cases p <;> first | rfl | simp at hp
  · rw [setStore_store, tableGet_tablePut, if_pos rfl]
    exact imagePasses_goodImage valid

end Sys2Proof.Laws
end

section
/-!
PROOFS. A commit of SETTINGS, setting by setting: what each is clamped and repaired to, and that valid content is left alone
(R46).
-/
namespace Sys2Proof.Laws

open Sys2Proof.Machine

/-! ### Images as their bytes -/

theorem byteAt_eq_zero_of_length_le {b : List Byte} {n : Nat} (h : b.length ≤ n) : byteAt b n = 0 := by
  rw [byteAt, List.getD_eq_default _ _ h]
  rfl

/-- Images of one length with the same bytes are the same. -/
theorem eq_of_byteAt {b c : List Byte} (size : b.length = c.length) (bytes : ∀ n, byteAt b n = byteAt c n) : b = c := by
  refine List.ext_getElem size fun n hb hc => ?_
  have value := bytes n
  rw [byteAt, byteAt, List.getD_eq_getElem _ _ hb, List.getD_eq_getElem _ _ hc] at value
  exact BitVec.eq_of_toNat_eq value

/-- Bytes put in where they stand already change nothing. -/
theorem splice_self {b new : List Byte} {i : Nat} (room : i + new.length ≤ b.length)
    (same : ∀ n, n < new.length → byteAt new n = byteAt b (i + n)) : splice b i new = b := by
  refine eq_of_byteAt (length_splice room) fun n => ?_
  rw [byteAt_splice (Nat.le_of_add_right_le room)]
  split
  case isTrue within =>
    rw [same _ (by omega)]
    congr 1
    omega
  case isFalse => rfl

/-- The bytes of a slice are all 0 exactly if the image reads 0 there. -/
theorem slice_all_zero_iff (b : List Byte) (i n : Nat) :
    (slice b i n).all (fun x => x = 0) = true ↔ ∀ k, i ≤ k → k < i + n → byteAt b k = 0 := by
  simp only [List.all_eq_true, decide_eq_true_eq, slice]
  refine ⟨fun zero k low high => ?_, fun zero x hx => ?_⟩
  · by_cases inside : k < b.length
    · have member : b[k] ∈ (b.drop i).take n := by
        refine List.mem_iff_getElem.mpr ⟨k - i, by simp only [List.length_take, List.length_drop]; omega, ?_⟩
        simp only [List.getElem_take, List.getElem_drop, Nat.add_sub_cancel' low]
      rw [byteAt, List.getD_eq_getElem _ _ inside, zero _ member]
      rfl
    · exact byteAt_eq_zero_of_length_le (by omega)
  · obtain ⟨k, hk, rfl⟩ := List.mem_iff_getElem.mp hx
    simp only [List.length_take, List.length_drop] at hk
    have value := zero (i + k) (by omega) (by omega)
    rw [byteAt, List.getD_eq_getElem _ _ (by omega)] at value
    simp only [List.getElem_take, List.getElem_drop]
    exact BitVec.eq_of_toNat_eq value

/-! ### The start-up test (R46) -/

theorem settingsValid_iff (b : List Byte) :
    settingsValid b = true ↔
      (∀ r ∈ settingRows, r.lowest ≤ settingValue b r ∧ settingValue b r ≤ r.highest) ∧
        (∀ n, 61 ≤ n → n < 64 → byteAt b n = 0) ∧ byteAt b 10 < byteAt b 9 ∧ word16At b 35 < word16At b 41 := by
  simp only [settingsValid, settingsPairsRight, Bool.and_eq_true, slice_all_zero_iff, decide_eq_true_eq,
    List.all_eq_true (l := settingRows), and_assoc]

/-! ### Valid content is left alone -/

/-- A setting given the value that it has. -/
theorem putSetting_settingValue {b : List Byte} {r : SettingRow} (size : b.length = 64) (sound : rowSound r) :
    putSetting b r (settingValue b r) = b := by
  obtain ⟨width, place, -, -⟩ := sound
  have byte (n : Nat) : byteAt b n < 256 := (b.getD n 0).isLt
  rcases width with one | two
  · simp only [putSetting, settingValue, one, if_neg (by decide : ¬(1 = 2))]
    refine splice_self (by simp only [List.length_singleton]; omega) fun n hn => ?_
    obtain rfl : n = 0 := by simpa using hn
    rw [byteAt_toByte, Nat.mod_eq_of_lt (byte _)]
    rfl
  · simp only [putSetting, settingValue, two, if_true]
    refine splice_self (by simp only [bytes16, List.length_cons, List.length_nil]; omega) fun n hn => ?_
    have high := byte r.offset
    have low := byte (r.offset + 1)
    have : n = 0 ∨ n = 1 := by
      simp only [bytes16, List.length_cons, List.length_nil] at hn
      omega
    rcases this with rfl | rfl
    · refine (byteAt_toByte (word16At b r.offset / 256)).trans ?_
      simp only [word16At, Nat.add_zero]
      omega
    · refine (byteAt_toByte (word16At b r.offset)).trans ?_
      simp only [word16At]
      omega

theorem clampNat_of_mem {x lo hi : Nat} (low : lo ≤ x) (high : x ≤ hi) : clampNat x lo hi = x := by
  rw [clampNat, if_neg low.not_gt, if_neg high.not_gt]

theorem rowsClamped_of_inRange {rows : List SettingRow} {b : List Byte} (size : b.length = 64)
    (sound : ∀ r ∈ rows, rowSound r)
    (ranges : ∀ r ∈ rows, r.lowest ≤ settingValue b r ∧ settingValue b r ≤ r.highest) : rowsClamped rows b = b := by
  induction rows with
  | nil => rfl
  | cons r rest ih =>
    obtain ⟨hr, others⟩ := List.forall_mem_cons.mp sound
    obtain ⟨⟨low, high⟩, later⟩ := List.forall_mem_cons.mp ranges
    have first : putSetting b r (clampNat (settingValue b r) r.lowest r.highest) = b := by
      rw [clampNat_of_mem low high, putSetting_settingValue size hr]
    change rowsClamped rest (putSetting b r _) = b
    rw [first, ih others later]

theorem settingsPutRight_of_valid {b : List Byte} (size : b.length = 64) (valid : settingsValid b = true) :
    settingsPutRight b = b := by
  obtain ⟨ranges, zero, load, smoke⟩ := (settingsValid_iff b).mp valid
  have clamped : settingsClamped b = b := by
    change splice (rowsClamped settingRows b) 61 [0, 0, 0] = b
    rw [rowsClamped_of_inRange size rowSound_of_mem ranges]
    refine splice_self (by simp [size]) fun n hn => ?_
    have : n = 0 ∨ n = 1 ∨ n = 2 := by
      simp only [List.length_cons, List.length_nil] at hn
      omega
    rw [zero (61 + n) (by omega) (by omega)]
    rcases this with rfl | rfl | rfl <;> rfl
  rw [settingsPutRight, clamped, settingsLoadRepaired, if_pos load, settingsSmokeRepaired, if_pos smoke]

/-! ### Each setting, clamped and repaired -/

theorem settingValue_settingsClamped {b : List Byte} {r : SettingRow} (size : b.length = 64) (hr : r ∈ settingRows) :
    settingValue (settingsClamped b) r = clampNat (settingValue b r) r.lowest r.highest := by
  obtain ⟨width, place, -, -⟩ := rowSound_of_mem r hr
  rw [← settingValue_rowsClamped size rowSound_of_mem settingRows_ordered hr]
  refine settingValue_congr fun n _ high => ?_
  change byteAt (splice (rowsClamped settingRows b) 61 [0, 0, 0]) n = _
  rw [byteAt_splice (by rw [length_rowsClamped size rowSound_of_mem]; decide), if_neg (by omega)]

/-- LOAD_OFF in Table 3-9. -/
def loadOffRow : SettingRow := ⟨10, 1, 0, 254, 32⟩

/-- SMK_DRY in Table 3-9. -/
def smokeDryRow : SettingRow := ⟨41, 2, 1, 4095, 3300⟩

/-- LOAD_ON and SMK_TARGET, which the repairs go by. -/
def loadOnRow : SettingRow := ⟨9, 1, 1, 255, 64⟩
def smokeTargetRow : SettingRow := ⟨35, 2, 0, 4094, 2600⟩

section
variable (b : List Byte)

theorem settingValue_loadOffRow : settingValue b loadOffRow = byteAt b 10 := rfl
theorem settingValue_smokeDryRow : settingValue b smokeDryRow = word16At b 41 := rfl
theorem settingValue_loadOnRow : settingValue b loadOnRow = byteAt b 9 := rfl
theorem settingValue_smokeTargetRow : settingValue b smokeTargetRow = word16At b 35 := rfl

end

theorem repairedRows_mem : loadOffRow ∈ settingRows ∧ smokeDryRow ∈ settingRows := by decide

theorem row_of_repaired_offset :
    ∀ r ∈ settingRows, (r.offset = 10 → r = loadOffRow) ∧ (r.offset = 41 → r = smokeDryRow) := by decide

section
variable {c : List Byte} (h : SettingsInRange c)
include h

/-- Step 2 of R46 changes LOAD_OFF alone. -/
theorem settingValue_settingsLoadRepaired {r : SettingRow} (hr : r ∈ settingRows) :
    settingValue (settingsLoadRepaired c) r =
      if r.offset = 10 ∧ byteAt c 9 ≤ byteAt c 10 then byteAt c 9 - 1 else settingValue c r := by
  obtain ⟨mem, -⟩ := repairedRows_mem
  obtain ⟨named, -⟩ := row_of_repaired_offset r hr
  have top : byteAt c 9 < 256 := (c.getD 9 0).isLt
  by_cases right : byteAt c 10 < byteAt c 9
  · rw [settingsLoadRepaired, if_pos right, if_neg (by omega)]
  · have repaired : settingsLoadRepaired c = putSetting c loadOffRow (byteAt c 9 - 1) := if_neg right
    rw [repaired]
    by_cases same : r.offset = 10
    · rw [if_pos ⟨same, Nat.not_lt.mp right⟩, named same]
      exact settingValue_putSetting_same h.size (rowSound_of_mem _ mem) (show byteAt c 9 - 1 < 256 by omega)
    · rw [if_neg (by omega)]
      refine settingValue_putSetting_of_apart h.size (rowSound_of_mem _ mem) (rowSound_of_mem r hr)
        (rowsApart_of_ne mem hr fun eq => same ?_) _
      rw [← eq]
      rfl

/-- Step 3 of R46 changes SMK_DRY alone. -/
theorem settingValue_settingsSmokeRepaired {r : SettingRow} (hr : r ∈ settingRows) :
    settingValue (settingsSmokeRepaired c) r =
      if r.offset = 41 ∧ word16At c 41 ≤ word16At c 35 then word16At c 35 + 1 else settingValue c r := by
  obtain ⟨-, mem⟩ := repairedRows_mem
  obtain ⟨-, named⟩ := row_of_repaired_offset r hr
  obtain ⟨-, target⟩ : 0 ≤ word16At c 35 ∧ word16At c 35 ≤ 4094 := h.ranges smokeTargetRow (by decide)
  by_cases right : word16At c 35 < word16At c 41
  · rw [settingsSmokeRepaired, if_pos right, if_neg (by omega)]
  · have repaired : settingsSmokeRepaired c = putSetting c smokeDryRow (word16At c 35 + 1) := if_neg right
    rw [repaired]
    by_cases same : r.offset = 41
    · rw [if_pos ⟨same, Nat.not_lt.mp right⟩, named same]
      exact settingValue_putSetting_same h.size (rowSound_of_mem _ mem) (show word16At c 35 + 1 < 65536 by omega)
    · rw [if_neg (by omega)]
      refine settingValue_putSetting_of_apart h.size (rowSound_of_mem _ mem) (rowSound_of_mem r hr)
        (rowsApart_of_ne mem hr fun eq => same ?_) _
      rw [← eq]
      rfl

end

/-- Every setting of content put right, by the value that it was clamped to and the two pairs of R46. -/
theorem settingValue_settingsPutRight {b : List Byte} {r : SettingRow} (size : b.length = 64) (hr : r ∈ settingRows) :
    let c := settingsPutRight b
    let clamped := clampNat (settingValue b r) r.lowest r.highest
    settingValue c r =
      if r.offset = 10 ∧ byteAt c 9 ≤ clamped then byteAt c 9 - 1
      else if r.offset = 41 ∧ clamped ≤ word16At c 35 then word16At c 35 + 1 else clamped := by
  intro c clamped
  have first := settingsClamped_inRange size
  obtain ⟨second, -⟩ := settingsLoadRepaired_spec first
  have clampedValue {q : SettingRow} (hq : q ∈ settingRows) := settingValue_settingsClamped size hq
  have loadValue {q : SettingRow} (hq : q ∈ settingRows) := settingValue_settingsLoadRepaired first hq
  have value {q : SettingRow} (hq : q ∈ settingRows) : settingValue c q = _ :=
    settingValue_settingsSmokeRepaired second hq
  have kept {q : SettingRow} (hq : q ∈ settingRows) (load : q.offset ≠ 10) (dry : q.offset ≠ 41) :
      settingValue c q = settingValue (settingsLoadRepaired (settingsClamped b)) q ∧
        settingValue c q = settingValue (settingsClamped b) q := by
    rw [value hq, loadValue hq, if_neg (by omega), if_neg (by omega)]
    exact ⟨rfl, rfl⟩
  obtain ⟨-, loadOn⟩ := kept (q := loadOnRow) (by decide) (by decide) (by decide)
  obtain ⟨target, -⟩ := kept (q := smokeTargetRow) (by decide) (by decide) (by decide)
  simp only [settingValue_loadOnRow, settingValue_smokeTargetRow] at loadOn target
  obtain ⟨isLoadOff, isDry⟩ := row_of_repaired_offset r hr
  by_cases loadOff : r.offset = 10
  · obtain rfl := isLoadOff loadOff
    have was := clampedValue hr
    rw [value hr, loadValue hr, was, loadOn]
    rw [settingValue_loadOffRow] at was
    simp [loadOff, was, clamped]
  · by_cases dry : r.offset = 41
    · obtain rfl := isDry dry
      have was := loadValue hr
      rw [clampedValue hr, if_neg (by omega)] at was
      rw [value hr, was, target]
      rw [settingValue_smokeDryRow] at was
      simp [dry, was, clamped]
    · rw [value hr, loadValue hr, clampedValue hr]
      simp [dry, loadOff, clamped]

/-- Settles O24. -/
theorem settingsArePutRight : Obligations.SettingsArePutRight := by
  unfold Obligations.SettingsArePutRight
  intro b size c clamped
  obtain ⟨length, valid⟩ := settingsPutRight_valid size
  obtain ⟨-, zero, -⟩ := (settingsValid_iff c).mp valid
  have value {r : SettingRow} (hr : r ∈ settingRows) : settingValue c r = _ := settingValue_settingsPutRight size hr
  refine ⟨length, fun r hr load smoke => ?_, fun r hr load => ?_, fun r hr smoke => ?_, fun n low => ?_, rfl, valid,
    settingsPutRight_of_valid size, settingsValid_iff b⟩
  · rw [value hr, if_neg (by omega), if_neg (by omega)]
    rfl
  · rw [value hr]
    simp only [load, true_and, ← Nat.not_lt, ite_not]
    rfl
  · rw [value hr]
    simp only [smoke, true_and, ← Nat.not_lt, ite_not]
    rfl
  · by_cases inside : n < 64
    · exact zero n low inside
    · exact byteAt_eq_zero_of_length_le (length.le.trans (by omega))

end Sys2Proof.Laws
end

section
/-!
PROOFS. The table target of a step (R71) over a valid SPEED table (R47).
-/
namespace Sys2Proof.Laws

open Sys2Proof.Machine

/-- A SPEED table without offence: its anchors are speeds, and none is below the one before it (R47). -/
theorem speedOffence_eq_none_iff (b : List Byte) :
    speedOffence b = none ↔ ∀ k, k < 17 → anchor b k ≤ 1023 ∧ (k ≠ 0 → anchor b (k - 1) ≤ anchor b k) := by
  simp [speedOffence]

/-- The line from an anchor to the next, at `r` fifteenths of the way, rounded half up; at 0 it is the anchor itself. -/
theorem tableTarget_line (b : List Byte) {k r : Nat} (hr : r < 15) (moving : 15 * k + r ≠ 0) :
    tableTarget b (15 * k + r) = anchor b k + ((anchor b (k + 1) - anchor b k) * r + 7) / 15 := by
  have segment : (15 * k + r) / 15 = k := by omega
  have place : (15 * k + r) % 15 = r := by omega
  simp only [tableTarget, if_neg moving, segment, place]
  split
  case isTrue anchored => simp [anchored]
  case isFalse => rfl

theorem tableTarget_anchor (b : List Byte) {k : Nat} (hk : k ≠ 0) : tableTarget b (15 * k) = anchor b k := by
  simpa using tableTarget_line b (k := k) (r := 0) (by decide) (by omega)

section
variable {b : List Byte} (sound : speedOffence b = none)
include sound

theorem anchor_le_succ {k : Nat} (hk : k < 16) : anchor b k ≤ anchor b (k + 1) := by
  obtain ⟨-, rises⟩ := (speedOffence_eq_none_iff b).mp sound (k + 1) (by omega)
  exact rises (by omega)

/-- A target on a line lies between the line's two anchors. -/
theorem tableTarget_between {k r : Nat} (hk : k < 16) (hr : r < 15) (moving : 15 * k + r ≠ 0) :
    anchor b k ≤ tableTarget b (15 * k + r) ∧ tableTarget b (15 * k + r) ≤ anchor b (k + 1) := by
  have rise := anchor_le_succ sound hk
  rw [tableTarget_line b hr moving]
  have part : (anchor b (k + 1) - anchor b k) * r ≤ (anchor b (k + 1) - anchor b k) * 14 :=
    Nat.mul_le_mul_left _ (by omega)
  omega

/-- Each step's target is at most the next's: on a line by the line, and at its end by the anchor that bounds it. -/
theorem tableTarget_le_succ {n : Nat} (hn : n < 240) : tableTarget b n ≤ tableTarget b (n + 1) := by
  obtain ⟨k, r, hr, rfl⟩ : ∃ k r, r < 15 ∧ n = 15 * k + r := ⟨n / 15, n % 15, by omega, by omega⟩
  by_cases moving : 15 * k + r = 0
  · rw [moving]
    exact Nat.zero_le _
  by_cases last : r = 14
  · obtain ⟨-, below⟩ := tableTarget_between sound (k := k) (by omega) hr moving
    have next : 15 * k + r + 1 = 15 * (k + 1) := by omega
    rwa [next, tableTarget_anchor b (by omega)]
  · rw [Nat.add_assoc, tableTarget_line b hr moving, tableTarget_line b (by omega : r + 1 < 15) (by omega)]
    gcongr
    omega

theorem tableTarget_mono {m n : Nat} (hmn : m ≤ n) (hn : n ≤ 240) : tableTarget b m ≤ tableTarget b n := by
  induction n, hmn using Nat.le_induction with
  | base => exact le_rfl
  | succ n _ ih => exact (ih (by omega)).trans (tableTarget_le_succ sound (by omega))

end

/-- Settles O30. -/
theorem targetFollowsTheSpeedTable : Obligations.TargetFollowsTheSpeedTable := by
  unfold Obligations.TargetFollowsTheSpeedTable
  intro b sound
  refine ⟨rfl, fun n first last => ?_, fun k low _ => tableTarget_anchor b (by omega), fun k r hk low high => ?_,
    fun m n => tableTarget_mono sound⟩
  · obtain ⟨top, -⟩ := (speedOffence_eq_none_iff b).mp sound 16 (by decide)
    have upper : tableTarget b n ≤ anchor b 16 := tableTarget_mono sound last le_rfl
    obtain ⟨lower, -⟩ : anchor b 0 ≤ tableTarget b 1 ∧ _ :=
      tableTarget_between sound (k := 0) (r := 1) (by decide) (by decide) (by decide)
    exact ⟨lower.trans (tableTarget_mono sound first last), upper, upper.trans top⟩
  · rw [tableTarget_line b (by omega) (by omega)]
    omega

end Sys2Proof.Laws
end

section
/-!
SUPPORT. What the presence comparators bring about reads TBS by its active copies alone: every operation on the way goes on
alike under another editing state and another store (R38, R52, R182). One lemma an operation, a rewriting rule of `simp`.
-/
namespace Sys2Proof.Laws

open Sys2Proof.Machine

/-- The part with another editing state and another store; the active copies are those of `s`. -/
def refiled (e : Tbs) (m : PerTable Image) (s : State) : State :=
  (s.setTbs { e with active := s.tbs.active }).setStore m

variable (e : Tbs) (m : PerTable Image) (s : State)

/-! ### What is read, and what is written -/

@[simp] theorem refiled_parts :
    (refiled e m s).cli = s.cli ∧ (refiled e m s).dsp = s.dsp ∧ (refiled e m s).fnu = s.fnu ∧
    (refiled e m s).trc = s.trc ∧ (refiled e m s).mbr = s.mbr ∧ (refiled e m s).msq = s.msq ∧
    (refiled e m s).cam = s.cam ∧ (refiled e m s).snd = s.snd ∧ (refiled e m s).smk = s.smk ∧
    (refiled e m s).lmp = s.lmp ∧ (refiled e m s).ppm = s.ppm ∧ (refiled e m s).samples = s.samples ∧
    (refiled e m s).free = s.free ∧ (refiled e m s).pending = s.pending ∧
    (refiled e m s).tbs = { e with active := s.tbs.active } ∧ (refiled e m s).store = m :=
  ⟨rfl, rfl, rfl, rfl, rfl, rfl, rfl, rfl, rfl, rfl, rfl, rfl, rfl, rfl, rfl, rfl⟩

/-- The settings in force, and what is worked out from them and from the blocks. -/
@[simp] theorem refiled_settings :
    (refiled e m s).regOn = s.regOn ∧ (refiled e m s).loadOn = s.loadOn ∧ (refiled e m s).loadOff = s.loadOff ∧
    (refiled e m s).pwmFreq = s.pwmFreq ∧ (refiled e m s).tripLevelSetting = s.tripLevelSetting ∧
    (refiled e m s).emergBrakes = s.emergBrakes ∧ (refiled e m s).fanIdle = s.fanIdle ∧
    (refiled e m s).coastLimit = s.coastLimit ∧ (∀ n, (refiled e m s).lampRecord n = s.lampRecord n) ∧
    (∀ t, bemfTested (refiled e m s) t = bemfTested s t) ∧ (∀ t, stallTested (refiled e m s) t = stallTested s t) ∧
    presentSampled (refiled e m s) = presentSampled s ∧ demandChanged (refiled e m s) = demandChanged s ∧
    (∀ k, smokeResumed (refiled e m s) k = smokeResumed s k) ∧ (∀ k, smokeFanAt (refiled e m s) k = smokeFanAt s k) ∧
    backgroundChoice (refiled e m s) = backgroundChoice s ∧ dcapNow (refiled e m s) = dcapNow s ∧
    hmaxNow (refiled e m s) = hmaxNow s ∧ soundCapNow (refiled e m s) = soundCapNow s ∧
    (∀ x v, readsPresent (refiled e m s) x v = readsPresent s x v) :=
  ⟨rfl, rfl, rfl, rfl, rfl, rfl, rfl, rfl, fun _ => rfl, fun _ => rfl, fun _ => rfl, rfl, rfl, fun _ => rfl,
    fun _ => rfl, rfl, rfl, rfl, rfl, fun x _ => by cases x <;> rfl⟩

@[simp] theorem refiled_setFnu (x : Fnu) : (refiled e m s).setFnu x = refiled e m (s.setFnu x) := rfl
@[simp] theorem refiled_setTrc (x : Trc) : (refiled e m s).setTrc x = refiled e m (s.setTrc x) := rfl
@[simp] theorem refiled_setMbr (x : Mbr) : (refiled e m s).setMbr x = refiled e m (s.setMbr x) := rfl
@[simp] theorem refiled_setMsq (x : Msq) : (refiled e m s).setMsq x = refiled e m (s.setMsq x) := rfl
@[simp] theorem refiled_setSnd (x : Snd) : (refiled e m s).setSnd x = refiled e m (s.setSnd x) := rfl
@[simp] theorem refiled_setSmk (x : Smk) : (refiled e m s).setSmk x = refiled e m (s.setSmk x) := rfl
@[simp] theorem refiled_setLmp (x : Lmp) : (refiled e m s).setLmp x = refiled e m (s.setLmp x) := rfl
@[simp] theorem refiled_setPpm (x : Ppm) : (refiled e m s).setPpm x = refiled e m (s.setPpm x) := rfl

/-- A choice between two such states. -/
@[simp] theorem ite_refiled (c : Prop) [Decidable c] (s t : State) :
    (if c then refiled e m s else refiled e m t) = refiled e m (if c then s else t) :=
  (apply_ite (refiled e m) c s t).symm

/-! ### MBR (R102 to R104) -/

@[simp] theorem refiled_abandonGap : abandonGap (refiled e m s) = refiled e m (abandonGap s) := by
  simp [abandonGap]

@[simp] theorem refiled_startPeriod : startPeriod (refiled e m s) = refiled e m (startPeriod s) := by
  simp [startPeriod]

@[simp] theorem refiled_holdReleased : holdReleased (refiled e m s) = refiled e m (holdReleased s) := by
  simp [holdReleased]

@[simp] theorem refiled_bridgeDrive : bridgeDrive (refiled e m s) = refiled e m (bridgeDrive s) := by
  simp [bridgeDrive]

@[simp] theorem refiled_bridgeStart : bridgeStart (refiled e m s) = refiled e m (bridgeStart s) := by
  simp [bridgeStart]

@[simp] theorem refiled_bridgeStop (b : Bridge) : bridgeStop (refiled e m s) b = refiled e m (bridgeStop s b) := rfl

@[simp] theorem refiled_bridgeEmergency : bridgeEmergency (refiled e m s) = refiled e m (bridgeEmergency s) := by
  simp [bridgeEmergency]

@[simp] theorem refiled_takeMode (mode : Mode) : takeMode (refiled e m s) mode = refiled e m (takeMode s mode) := by
  cases bridge : s.mbr.bridge <;> cases mode <;> simp [takeMode, bridge, bridgeOff, endTrip]

@[simp] theorem refiled_takeDirection : takeDirection (refiled e m s) = refiled e m (takeDirection s) := by
  cases bridge : s.mbr.bridge <;> simp [takeDirection, bridge]

@[simp] theorem refiled_takeDutyAtOnce : takeDutyAtOnce (refiled e m s) = refiled e m (takeDutyAtOnce s) := by
  simp [takeDutyAtOnce]

@[simp] theorem refiled_takeDemand (mode : Mode) (d : Dir) (duty : Nat) (atOnce : Bool) :
    takeDemand (refiled e m s) mode d duty atOnce = refiled e m (takeDemand s mode d duty atOnce) := by
  simp only [takeDemand, refiled_parts, refiled_setMbr, refiled_takeMode, refiled_takeDirection,
    refiled_takeDutyAtOnce, ite_refiled]

/-! ### TRC -/

@[simp] theorem refiled_publish (p : Publication) : publish (refiled e m s) p = refiled e m (publish s p) := rfl

@[simp] theorem refiled_handDemand (atOnce : Bool) :
    handDemand (refiled e m s) atOnce = refiled e m (handDemand s atOnce) := by
  simp [handDemand]

@[simp] theorem refiled_publishTraction (before : Dir) :
    publishTraction before (refiled e m s) = refiled e m (publishTraction before s) := by
  simp [publishTraction]

@[simp] theorem refiled_tractionEnd (before : Trc) (tick work atOnce : Bool) :
    tractionEnd before tick work atOnce (refiled e m s) = refiled e m (tractionEnd before tick work atOnce s) := by
  simp [tractionEnd, followDirection_eq, testBemfTimer_eq, testStall_eq]

@[simp] theorem refiled_workOutLoad : workOutLoad (refiled e m s) = refiled e m (workOutLoad s) := by
  simp [workOutLoad]

@[simp] theorem refiled_tractionCap (dcap : Nat) : tractionCap (refiled e m s) dcap = refiled e m (tractionCap s dcap) := by
  simp only [tractionCap, refiled_parts, refiled_setTrc, refiled_workOutLoad, ite_refiled, refiled_tractionEnd]

@[simp] theorem refiled_tractionPower (p : PowerState) :
    tractionPower (refiled e m s) p = refiled e m (tractionPower s p) := by
  cases p <;> simp [tractionPower]

/-! ### SMK, SND and LMP -/

@[simp] theorem refiled_smokeEnd (before : SmokeState) :
    smokeEnd before (refiled e m s) = refiled e m (smokeEnd before s) := by
  simp [smokeEnd]

@[simp] theorem refiled_smokeCap (hmax : Nat) : smokeCap (refiled e m s) hmax = refiled e m (smokeCap s hmax) := by
  simp [smokeCap]

@[simp] theorem refiled_smokePower (p : PowerState) : smokePower (refiled e m s) p = refiled e m (smokePower s p) := by
  simp [smokePower]

@[simp] theorem refiled_engineWork : engineWork (refiled e m s) = refiled e m (engineWork s) := by
  simp [engineWork]

@[simp] theorem refiled_soundPower (p : PowerState) : soundPower (refiled e m s) p = refiled e m (soundPower s p) := by
  simp [soundPower]

@[simp] theorem refiled_lampsPower (p : PowerState) : lampsPower (refiled e m s) p = refiled e m (lampsPower s p) := by
  simp [lampsPower]

/-! ### PPM (R182 to R189) -/

@[simp] theorem refiled_publishDcap : publishDcap (refiled e m s) = refiled e m (publishDcap s) := by
  simp [publishDcap]

@[simp] theorem refiled_publishHmax : publishHmax (refiled e m s) = refiled e m (publishHmax s) := by
  simp [publishHmax]

@[simp] theorem refiled_publishSoundCap : publishSoundCap (refiled e m s) = refiled e m (publishSoundCap s) := by
  simp [publishSoundCap, soundCapTaken]

@[simp] theorem refiled_powerEnd : powerEnd (refiled e m s) = refiled e m (powerEnd s) := by
  simp [powerEnd]

@[simp] theorem refiled_announce (p : PowerState) : announce (refiled e m s) p = refiled e m (announce s p) := by
  simp [announce]

@[simp] theorem refiled_enterNormal : enterNormal (refiled e m s) = refiled e m (enterNormal s) := by
  simp [enterNormal]

@[simp] theorem refiled_supplyActive (x : Supply) : supplyActive (refiled e m s) x = refiled e m (supplyActive s x) := by
  simp only [supplyActive, refiled_parts, refiled_setPpm, refiled_enterNormal, ite_refiled]

@[simp] theorem refiled_enterCoast : enterCoast (refiled e m s) = refiled e m (enterCoast s) := by
  simp [enterCoast, bufferRequest]

@[simp] theorem refiled_bufferActive : bufferActive (refiled e m s) = refiled e m (bufferActive s) := by
  simp only [bufferActive, refiled_parts, refiled_setPpm, refiled_enterCoast, ite_refiled]

@[simp] theorem refiled_activeLost (x : Supply) : activeLost (refiled e m s) x = refiled e m (activeLost s x) := by
  simp [activeLost]

@[simp] theorem refiled_setSupply (x : Supply) (v : SupplyState) :
    setSupply (refiled e m s) x v = refiled e m (setSupply s x v) := by
  cases x <;> rfl

@[simp] theorem refiled_comparatorReads (x : Supply) (v : BitVec 12) :
    comparatorReads (refiled e m s) x v = refiled e m (comparatorReads s x v) := by
  simp [comparatorReads]

@[simp] theorem refiled_fastReturnRaise (x : Supply) :
    fastReturnRaise (refiled e m s) x = refiled e m (fastReturnRaise s x) := by
  simp [fastReturnRaise, injectRaised]

@[simp] theorem refiled_presenceGain (x : Supply) : presenceGain (refiled e m s) x = refiled e m (presenceGain s x) := by
  simp [presenceGain, startQualifying]

@[simp] theorem refiled_presenceLoss (x : Supply) : presenceLoss (refiled e m s) x = refiled e m (presenceLoss s x) := by
  simp only [presenceLoss, supplyAbsent, refiled_parts, refiled_setSupply, refiled_activeLost,
    refiled_fastReturnRaise, ite_refiled, refiled_powerEnd]
  rfl

@[simp] theorem refiled_presenceEvent (was : Bool) (x : Supply) :
    presenceEvent was x (refiled e m s) = refiled e m (presenceEvent was x s) := by
  simp [presenceEvent]

/-- The comparators follow new settings alike, whatever TBS is editing and the store holds. -/
@[simp] theorem refiled_settingsInstalled :
    settingsInstalled (refiled e m s) = refiled e m (settingsInstalled s) := by
  simp [settingsInstalled, presenceFollows]

end Sys2Proof.Laws
end

section
/-!
SUPPORT. What each target of FNU makes of a delivery is worked out of its own block and the active copies alone (R63 to R65).
-/
namespace Sys2Proof.Laws

open Sys2Proof.Machine

/-! ### Settings and records in force, from the active copies -/

section
variable {s t : State} (active : t.tbs.active = s.tbs.active)
include active

theorem setting1_congr (n : Nat) : setting1 t n = setting1 s n := by rw [setting1, setting1, active]

theorem setting2_congr (n : Nat) : setting2 t n = setting2 s n := by rw [setting2, setting2, active]

theorem lampRecord_congr (n : Nat) : t.lampRecord n = s.lampRecord n := by rw [State.lampRecord, State.lampRecord, active]

end

/-! ### LMP -/

theorem lampAt_setLamp (s : State) (n m : Nat) (o : Lamp) :
    lampAt (setLamp s n o).lmp m = if n = m ∧ n < s.lmp.outputs.length then o else lampAt s.lmp m := by
  simp only [setLamp, lampAt, setAt, setLmp_lmp, List.getD_eq_getElem?_getD, List.getElem?_set]
  by_cases same : n = m
  · subst same
    by_cases inside : n < s.lmp.outputs.length
    · simp [inside]
    · simp [inside]
  · simp [same]

/-- An output that there is takes a demand by the power state, its record and the flicker generator (R175, R179). -/
def lampAnswers (s : State) (n : Nat) (d : Option LampDemand) (o : Lamp) : Lamp :=
  if lampsDark s.lmp.power then lampKeep d o else lampTake (s.lampRecord n) s.lmp.flicker d o

theorem lampAt_lampDemanded (s : State) (n m : Nat) (d : Option LampDemand) :
    lampAt (lampDemanded s n d).lmp m =
      if n = m ∧ n < s.lmp.outputs.length then lampAnswers s n d (lampAt s.lmp n) else lampAt s.lmp m := by
  rw [lampDemanded, lampAt_setLamp]
  rfl

/-- A demand leaves the power state, the flicker generator and the number of outputs. -/
@[simp] theorem lampDemanded_rest (s : State) (n : Nat) (d : Option LampDemand) :
    (lampDemanded s n d).lmp.power = s.lmp.power ∧ (lampDemanded s n d).lmp.flicker = s.lmp.flicker ∧
      (lampDemanded s n d).lmp.outputs.length = s.lmp.outputs.length := by
  simp [lampDemanded, setLamp, setAt]

/-- What an output makes of a demand depends on that output, the power state, the flicker generator and the record. -/
theorem lampAt_lampDemanded_congr {s t : State} {n : Nat} (d : Option LampDemand)
    (active : t.tbs.active = s.tbs.active) (output : lampAt t.lmp n = lampAt s.lmp n)
    (power : t.lmp.power = s.lmp.power) (flicker : t.lmp.flicker = s.lmp.flicker)
    (size : t.lmp.outputs.length = s.lmp.outputs.length) :
    lampAt (lampDemanded t n d).lmp n = lampAt (lampDemanded s n d).lmp n := by
  simp only [lampAt_lampDemanded, lampAnswers, lampRecord_congr active, output, power, flicker, size]

/-! ### SMK -/

theorem smokeEnable_smk_congr {s t : State} (on : Bool) (active : t.tbs.active = s.tbs.active) (smk : t.smk = s.smk) :
    (smokeEnable t on).smk = (smokeEnable s on).smk := by
  have idle : t.fanIdle = s.fanIdle := setting1_congr active 43
  cases on <;> by_cases off : s.smk.state = .off <;>
    simp [smokeEnable, smokeEnableOn, smokeEnableOff, smk, off, idle, smokeRequest]

/-! ### SND -/

/-- The part of `t`, with SND and the active copies of `s`. -/
def voiced (t s : State) : State := (t.setTbs { t.tbs with active := s.tbs.active }).setSnd s.snd

theorem voiced_of_same {s t : State} (active : t.tbs.active = s.tbs.active) (snd : t.snd = s.snd) : voiced t s = t := by
  rw [voiced, ← active, ← snd]
  rfl

section
variable (t s : State)

@[simp] theorem voiced_snd : (voiced t s).snd = s.snd := rfl
@[simp] theorem voiced_setSnd (x : Snd) : (voiced t s).setSnd x = voiced t (s.setSnd x) := rfl
@[simp] theorem voiced_cues : (∀ c, (voiced t s).cueRecord c = s.cueRecord c) ∧ (∀ c, (voiced t s).cueEmpty c = s.cueEmpty c) :=
  ⟨fun _ => rfl, fun _ => rfl⟩

@[simp] theorem ite_voiced (c : Prop) [Decidable c] (u v : State) :
    (if c then voiced t u else voiced t v) = voiced t (if c then u else v) :=
  (apply_ite (voiced t) c u v).symm

@[simp] theorem voiced_victim : victim (voiced t s) = victim s := by
  have weight (v : Voice) : victimWeight (voiced t s) v = victimWeight s v := rfl
  have from_ (n best : Nat) (w : Nat × Nat) (pool : List Voice) :
      victimFrom (voiced t s) n best w pool = victimFrom s n best w pool := by
    induction pool generalizing n best w with
    | nil => rfl
    | cons v rest ih => simp only [victimFrom, weight, ih]
  simp only [victim, voiced_snd, weight, from_]

@[simp] theorem voiced_poolStart (place c position : Nat) (held : Bool) :
    poolStart (voiced t s) place c position held = voiced t (poolStart s place c position held) := by
  simp [poolStart]

@[simp] theorem voiced_pushPreempted (v : Voice) : pushPreempted (voiced t s) v = voiced t (pushPreempted s v) := by
  cases cue : v.cue <;> simp [pushPreempted, cue]

@[simp] theorem voiced_poolContest (c : Nat) : poolContest (voiced t s) c = voiced t (poolContest s c) := by
  simp [poolContest]

@[simp] theorem voiced_poolPlace (c : Nat) : poolPlace (voiced t s) c = voiced t (poolPlace s c) := by
  simp only [poolPlace, voiced_snd, voiced_setSnd]
  split <;> simp

@[simp] theorem voiced_soundTrigger (c : Nat) : soundTrigger (voiced t s) c = voiced t (soundTrigger s c) := by
  cases playing : poolPlaying s.snd.pool c <;> simp [soundTrigger, playing]

@[simp] theorem voiced_soundRelease (c : Nat) : soundRelease (voiced t s) c = voiced t (soundRelease s c) := by
  cases engine : s.snd.on <;> simp [soundRelease, engine]

theorem voiced_cuesDelivered (cues : List (Nat × Bool)) :
    cuesDelivered cues (voiced t s) = voiced t (cuesDelivered cues s) := by
  induction cues generalizing s with
  | nil => rfl
  | cons c rest ih =>
    simp only [cuesDelivered, List.foldl_cons, voiced_soundTrigger, voiced_soundRelease, ite_voiced] at ih ⊢
    exact ih _

end

/-- What the voices make of triggers and releases depends on SND and the active cues. -/
theorem cuesDelivered_snd_congr {s t : State} (cues : List (Nat × Bool)) (active : t.tbs.active = s.tbs.active)
    (snd : t.snd = s.snd) : (cuesDelivered cues t).snd = (cuesDelivered cues s).snd := by
  rw [← voiced_of_same active snd, voiced_cuesDelivered, voiced_snd]

/-- The choice of background: the selected cue from its start, held, or idle where it is empty (R154, R155). -/
theorem backgroundChoice_eq (s : State) :
    backgroundChoice s =
      let cue := if s.trc.published.moving then s.bgRunCue else s.bgIdleCue
      if (s.cueRecord cue).length = 0 then voiceFree
      else { cue := some cue, position := 0, held := true, volume := (s.cueRecord cue).volume, order := 0 } :=
  if_congr decide_eq_true_iff rfl rfl

/-- Mute reaches the engine, which follows it (R64, R152). -/
theorem soundMute_eq (s : State) (on : Bool) :
    soundMute s on =
      s.setSnd { engineFollows s s.trc.published.moving (engineOn on s.snd.power) with mute := on } := by
  have choice (x : Snd) : backgroundChoice (s.setSnd x) = backgroundChoice s := rfl
  simp only [soundMute, engineWork, engineFollows, choice, backgroundChoice_eq s, setSnd_snd]
  split
  · rfl
  · split <;> rfl

theorem soundMute_snd_congr {s t : State} (on : Bool) (active : t.tbs.active = s.tbs.active) (snd : t.snd = s.snd)
    (moving : t.trc.published.moving = s.trc.published.moving) : (soundMute t on).snd = (soundMute s on).snd := by
  have follows (was now : Bool) : engineFollows t was now = engineFollows s was now := by
    rw [← voiced_of_same active snd]
    rfl
  rw [soundMute_eq, soundMute_eq, setSnd_snd, setSnd_snd, follows, snd, moving]

/-! ### TRC -/

/-- Whether the request for a gap still stands once MBR has given up what gap it had (R108, R126). -/
def stillOutstanding (m : Mbr) (outstanding : Bool) : Bool := outstanding && m.gap = .noGap

theorem abandonGap_outstanding (s : State) :
    (abandonGap s).trc.outstanding = stillOutstanding s.mbr s.trc.outstanding := by
  simp only [abandonGap, stillOutstanding]
  split <;> simp_all

/-- The same, once MBR has taken a mode, or a direction (R103, R104): a bridge in DRIVE or GAP gives its gap up. -/
def outstandingAtMode (m : Mbr) (mode : Mode) (outstanding : Bool) : Bool :=
  if (m.bridge = .drive ∨ m.bridge = .gap) ∧ mode ≠ .drive then stillOutstanding m outstanding else outstanding

def outstandingAtTurn (m : Mbr) (outstanding : Bool) : Bool :=
  if m.bridge = .drive ∨ m.bridge = .gap then stillOutstanding m outstanding else outstanding

theorem takeMode_outstanding (s : State) (mode : Mode) :
    (takeMode s mode).trc.outstanding = outstandingAtMode s.mbr mode s.trc.outstanding := by
  cases bridge : s.mbr.bridge <;> cases mode <;> simp [takeMode, outstandingAtMode, bridge, abandonGap_outstanding]

theorem takeDirection_outstanding (s : State) :
    (takeDirection s).trc.outstanding = outstandingAtTurn s.mbr s.trc.outstanding := by
  cases bridge : s.mbr.bridge <;> simp [takeDirection, outstandingAtTurn, bridge, abandonGap_outstanding]

/-- What of the part an outstanding request can depend on as a demand is handed to MBR. -/
def demandView (s : State) : Mbr × Traction × Dir × Nat × Bool :=
  (s.mbr, s.trc.state, s.trc.drive, s.trc.duty, s.trc.outstanding)

theorem handDemand_outstanding_congr {s t : State} (atOnce : Bool) (same : demandView t = demandView s) :
    (handDemand t atOnce).trc.outstanding = (handDemand s atOnce).trc.outstanding := by
  simp only [demandView, Prod.mk.injEq] at same
  obtain ⟨mbr, state, drive, duty, outstanding⟩ := same
  have demanded : demandedDuty t.trc = demandedDuty s.trc := by simp only [demandedDuty, state, duty]
  have changed : demandChanged t = demandChanged s := by simp only [demandChanged, mbr, state, drive, demanded]
  simp only [handDemand, changed, state, drive, demanded]
  split
  · simp only [takeDemand, mbr]
    split
    · simp only [takeMode_outstanding, setMbr_mbr, setMbr_trc, outstanding]
    · split
      · simp only [takeDirection_outstanding, setMbr_mbr, setMbr_trc, outstanding]
      · split <;> simpa using outstanding
  · exact outstanding

/-- At the end of an event that is no tick MBR is handed the demand of TRC as it stands once the drive direction has
followed. -/
theorem tractionEnd_hands (before : Trc) (s : State) :
    ∃ v, tractionEnd before false false false s = handDemand v false ∧ demandView v = demandView (followDirection s) := by
  have published (u : State) : demandView (publishTraction before.drive u) = demandView u := by
    simp only [publishTraction]
    split <;> rfl
  have bemf (u : State) : demandView (testBemfTimer u) = demandView u := by rw [testBemfTimer_eq]; rfl
  have stall (u : State) : demandView (testStall u) = demandView u := by rw [testStall_eq]; rfl
  refine ⟨_, rfl, ?_⟩
  rw [published]
  (repeat' split) <;> simp only [bemf, stall]

/-- The end of an event takes no account of the momentum-off flag. -/
theorem tractionEnd_outstanding_congr {s t : State} {b : Bool} (before before' : Trc) (mbr : t.mbr = s.mbr)
    (trc : t.trc = { s.trc with momentumOff := b }) :
    (tractionEnd before' false false false t).trc.outstanding =
      (tractionEnd before false false false s).trc.outstanding := by
  obtain ⟨v, ends, view⟩ := tractionEnd_hands before s
  obtain ⟨w, ends', view'⟩ := tractionEnd_hands before' t
  rw [ends, ends']
  refine handDemand_outstanding_congr false (view'.trans (Eq.trans ?_ view.symm))
  simp only [followDirection_eq, demandView, setTrc_mbr, setTrc_trc, mbr, trc]

/-- T and the state that follows it, once T has been worked out afresh (R71, R72). -/
def retargeted (s : State) : Trc :=
  idleOrRunning { s.trc with target := targetFor s s.trc.step }

theorem retarget_eq (s : State) : retarget s = tractionEnd s.trc false false false (s.setTrc (retargeted s)) := rfl

/-- The state that a new T gives (R72). -/
def retargetedState (s : State) : Traction :=
  match s.trc.state with
  | .idle => if 0 < targetFor s s.trc.step ∧ s.trc.armed = true then .running else .idle
  | .running => if s.trc.ramp = 0 ∧ targetFor s s.trc.step = 0 then .idle else .running
  | other => other

theorem retargeted_eq (s : State) :
    retargeted s = { s.trc with target := targetFor s s.trc.step, state := retargetedState s } := by
  cases state : s.trc.state <;> simp only [retargeted, idleOrRunning, retargetedState, state]
  case idle | running => split <;> simp_all

theorem retarget_ends (s : State) : EndsAs s (retargeted s) (retarget s) := by
  rw [retarget_eq]
  exact endsAs_tractionEnd (by rw [retargeted_eq]) (by rw [retargeted_eq])

section
variable {s t : State} (active : t.tbs.active = s.tbs.active)
include active

theorem bemfTested_congr (x : Trc) : bemfTested t x = bemfTested s x := by
  have regOn : t.regOn = s.regOn := by rw [State.regOn, State.regOn, setting1_congr active]
  have period : t.bemfPeriod = s.bemfPeriod := setting1_congr active 6
  rw [bemfTested, bemfTested, regOn, period]

theorem stallTested_congr (x : Trc) : stallTested t x = stallTested s x := by
  have regOn : t.regOn = s.regOn := by rw [State.regOn, State.regOn, setting1_congr active]
  have duty : t.stallDuty = s.stallDuty := setting2_congr active 11
  have speed : t.stallSpeed = s.stallSpeed := setting2_congr active 13
  have time : t.stallTime = s.stallTime := setting1_congr active 15
  rw [stallTested, stallTested, regOn, duty, speed, time]

/-- T worked out afresh takes no account of the momentum-off flag, nor of any block but TRC and MBR. -/
theorem retarget_trc_congr {b : Bool} (mbr : t.mbr = s.mbr) (trc : t.trc = { s.trc with momentumOff := b }) :
    (retarget t).trc = { (retarget s).trc with momentumOff := b } := by
  have target : targetFor t t.trc.step = targetFor s s.trc.step := by rw [targetFor, targetFor, trc, active]
  have new : retargeted t = { retargeted s with momentumOff := b } := by
    rw [retargeted_eq, retargeted_eq, retargetedState, retargetedState, target, trc]
  have done : ended t (retargeted t) = { ended s (retargeted s) with momentumOff := b } := by
    rw [new, ended, ended, trc, bemfTested_congr active, stallTested_congr active]
    rfl
  have outstanding : (retarget t).trc.outstanding = (retarget s).trc.outstanding := by
    rw [retarget_eq, retarget_eq]
    exact tractionEnd_outstanding_congr (b := b) _ _ mbr new
  obtain ⟨⟨published, -⟩, p, o, eq⟩ := retarget_ends s
  obtain ⟨⟨published', -⟩, p', o', eq'⟩ := retarget_ends t
  rw [eq, eq'] at outstanding
  rw [eq] at published
  rw [eq', done] at published'
  have samePublished : p' = p := published'.trans published.symm
  rw [eq, eq', done, samePublished, show o' = o from outstanding]

theorem tractionShunt_trc_congr {b : Bool} (on : Bool) (mbr : t.mbr = s.mbr)
    (trc : t.trc = { s.trc with momentumOff := b }) :
    (tractionShunt t on).trc = { (tractionShunt s on).trc with momentumOff := b } := by
  have shunted : { t.trc with shunt := on } = { { s.trc with shunt := on } with momentumOff := b } := by rw [trc]
  exact retarget_trc_congr (s := s.setTrc { s.trc with shunt := on }) (t := t.setTrc { t.trc with shunt := on }) active
    mbr shunted

end

theorem retarget_momentumOff (s : State) : (retarget s).trc.momentumOff = s.trc.momentumOff := by
  obtain ⟨-, p, o, trc⟩ := retarget_ends s
  rw [trc, retargeted_eq]
  rfl

theorem tractionShunt_momentumOff (s : State) (on : Bool) : (tractionShunt s on).trc.momentumOff = s.trc.momentumOff :=
  retarget_momentumOff _

/-- An event at TRC changes of FNU no more than what waits for it. -/
theorem tractionShunt_fnu (s : State) (on : Bool) : ∃ w, (tractionShunt s on).fnu = { s.fnu with waiting := w } := by
  obtain ⟨⟨-, fnu, -⟩, -⟩ := retarget_ends (s.setTrc { s.trc with shunt := on })
  exact ⟨_, fnu⟩

theorem tractionShunt_trc_of_same {s t : State} (active : t.tbs.active = s.tbs.active) (mbr : t.mbr = s.mbr)
    (trc : t.trc = s.trc) (on : Bool) : (tractionShunt t on).trc = (tractionShunt s on).trc := by
  have eq := tractionShunt_trc_congr (b := s.trc.momentumOff) active on mbr trc
  rwa [← tractionShunt_momentumOff s on] at eq

theorem smokeEnable_fnu (s : State) (on : Bool) : ∃ w, (smokeEnable s on).fnu = { s.fnu with waiting := w } := by
  have ends (before : SmokeState) (u : State) : ∃ w, (smokeEnd before u).fnu = { u.fnu with waiting := w } := by
    simp only [smokeEnd]
    split
    · exact ⟨_, rfl⟩
    · exact ⟨_, rfl⟩
  have off : ∃ w, (smokeEnableOff s).fnu = { s.fnu with waiting := w } := by
    simp only [smokeEnableOff]
    split
    · exact ⟨_, rfl⟩
    · exact ends _ _
  have on_ : ∃ w, (smokeEnableOn s).fnu = { s.fnu with waiting := w } := by
    simp only [smokeEnableOn]
    split
    · exact ends _ _
    · exact ⟨_, rfl⟩
  cases on
  · exact off
  · exact on_

end Sys2Proof.Laws
end

section
/-!
SUPPORT. The deliveries of a walk over map entries, one after another: each output that an entry bears reaches its target once,
and only if its new level differs from the one last delivered (R61, R62, R67).
-/
namespace Sys2Proof.Laws

open Sys2Proof.Machine

/-! ### Cues leave the mute flag of SND alone -/

@[simp] theorem pushPreempted_mute (s : State) (v : Voice) : (pushPreempted s v).snd.mute = s.snd.mute := by
  simp only [pushPreempted]
  (repeat' split) <;> rfl

@[simp] theorem poolStart_mute (s : State) (place c position : Nat) (held : Bool) :
    (poolStart s place c position held).snd.mute = s.snd.mute := rfl

@[simp] theorem poolContest_mute (s : State) (c : Nat) : (poolContest s c).snd.mute = s.snd.mute := by
  simp only [poolContest]
  (repeat' split) <;> simp

@[simp] theorem poolPlace_mute (s : State) (c : Nat) : (poolPlace s c).snd.mute = s.snd.mute := by
  simp only [poolPlace]
  split <;> simp

@[simp] theorem soundTrigger_mute (s : State) (c : Nat) : (soundTrigger s c).snd.mute = s.snd.mute := by
  simp only [soundTrigger]
  (repeat' split) <;> simp

@[simp] theorem soundRelease_mute (s : State) (c : Nat) : (soundRelease s c).snd.mute = s.snd.mute := by
  simp only [soundRelease]
  split <;> rfl

/-! ### One delivery -/

/-- The levels last delivered, once an entry has had its delivery. -/
def deliveredAfter (new : Outputs) (e : MapEntry) (d : Outputs) : Outputs :=
  match e.action with
  | some (.lamp n _) => { d with lamps := setAt d.lamps n (new.lamps.getD n none) }
  | some .smoke => { d with smoke := new.smoke }
  | some .mute => { d with mute := new.mute }
  | some .shunt => { d with shunt := new.shunt }
  | some .momentumOff => { d with momentumOff := new.momentumOff }
  | some (.cue _) => d
  | none => d

theorem setAt_getD_self {α : Type} (l : List α) (n : Nat) (x : α) : setAt l n (l.getD n x) = l := by
  refine List.ext_getElem (by simp [setAt]) fun m h _ => ?_
  simp only [setAt, List.length_set] at h
  by_cases same : n = m
  · subst same
    simp [setAt, h]
  · simp [setAt, same]

section
variable (new : Outputs) (s : State)

theorem deliverLamp_spec (n : Nat) :
    (deliverLamp new n s).fnu =
        { s.fnu with delivered := { s.fnu.delivered with
                                    lamps := setAt s.fnu.delivered.lamps n (new.lamps.getD n none) } } ∧
      (deliverLamp new n s).lmp =
        if s.fnu.delivered.lamps.getD n none = new.lamps.getD n none then s.lmp
        else (lampDemanded s n (new.lamps.getD n none)).lmp := by
  simp only [deliverLamp]
  split
  case isTrue same =>
    rw [← same, setAt_getD_self]
    exact ⟨rfl, rfl⟩
  case isFalse => exact ⟨by simp [setDelivered], rfl⟩

theorem deliverSmoke_spec :
    (∃ w, (deliverSmoke new s).fnu =
        { s.fnu with waiting := w, delivered := { s.fnu.delivered with smoke := new.smoke } }) ∧
      (deliverSmoke new s).smk = if s.fnu.delivered.smoke = new.smoke then s.smk else (smokeEnable s new.smoke).smk := by
  simp only [deliverSmoke]
  split
  case isTrue same =>
    rw [← same]
    exact ⟨⟨_, rfl⟩, rfl⟩
  case isFalse =>
    obtain ⟨w, fnu⟩ := smokeEnable_fnu (setDelivered s { s.fnu.delivered with smoke := new.smoke }) new.smoke
    exact ⟨⟨w, fnu⟩, smokeEnable_smk_congr _ rfl rfl⟩

theorem deliverMute_spec :
    (deliverMute new s).fnu = { s.fnu with delivered := { s.fnu.delivered with mute := new.mute } } ∧
      (deliverMute new s).snd = if s.fnu.delivered.mute = new.mute then s.snd else (soundMute s new.mute).snd := by
  simp only [deliverMute]
  split
  case isTrue same =>
    rw [← same]
    exact ⟨rfl, rfl⟩
  case isFalse => exact ⟨by simp [setDelivered], soundMute_snd_congr _ rfl rfl rfl⟩

theorem deliverShunt_spec :
    (∃ w, (deliverShunt new s).fnu =
        { s.fnu with waiting := w, delivered := { s.fnu.delivered with shunt := new.shunt } }) ∧
      (deliverShunt new s).trc = if s.fnu.delivered.shunt = new.shunt then s.trc else (tractionShunt s new.shunt).trc := by
  simp only [deliverShunt]
  split
  case isTrue same =>
    rw [← same]
    exact ⟨⟨_, rfl⟩, rfl⟩
  case isFalse =>
    let u := setDelivered s { s.fnu.delivered with shunt := new.shunt }
    obtain ⟨w, fnu⟩ := tractionShunt_fnu u new.shunt
    have trc : (tractionShunt u new.shunt).trc = (tractionShunt s new.shunt).trc :=
      tractionShunt_trc_of_same (s := s) (t := u) rfl rfl rfl _
    exact ⟨⟨w, fnu⟩, trc⟩

theorem deliverMomentum_spec :
    (deliverMomentum new s).fnu =
        { s.fnu with delivered := { s.fnu.delivered with momentumOff := new.momentumOff } } ∧
      (deliverMomentum new s).trc =
        if s.fnu.delivered.momentumOff = new.momentumOff then s.trc
        else { s.trc with momentumOff := new.momentumOff } := by
  simp only [deliverMomentum]
  split
  case isTrue same =>
    rw [← same]
    exact ⟨rfl, rfl⟩
  case isFalse => exact ⟨rfl, rfl⟩

/-- A delivery changes of FNU only the levels delivered and what waits. -/
theorem deliverEntry_fnu (e : MapEntry) (on : Bool) :
    ∃ w, (deliverEntry new e on s).fnu =
      { s.fnu with waiting := w, delivered := deliveredAfter new e s.fnu.delivered } := by
  rcases action : e.action with _ | (⟨n, d⟩ | c | _ | _ | _ | _) <;> simp only [deliverEntry, deliveredAfter, action]
  case none => exact ⟨_, rfl⟩
  case some.lamp => exact ⟨_, (deliverLamp_spec new s n).1⟩
  case some.cue => exact ⟨s.fnu.waiting, by cases on <;> simp⟩
  case some.smoke => exact (deliverSmoke_spec new s).1
  case some.mute => exact ⟨_, (deliverMute_spec new s).1⟩
  case some.shunt => exact (deliverShunt_spec new s).1
  case some.momentumOff => exact ⟨_, (deliverMomentum_spec new s).1⟩

theorem deliverEntry_delivered (e : MapEntry) (on : Bool) :
    (deliverEntry new e on s).fnu.delivered = deliveredAfter new e s.fnu.delivered := by
  obtain ⟨w, fnu⟩ := deliverEntry_fnu new s e on
  rw [fnu]

end

section
variable (new : Outputs) (s : State) {e : MapEntry} (on : Bool)

/-- The blocks that a delivery leaves alone, by the action. -/
theorem deliverEntry_lmp (h : ∀ n d, e.action ≠ some (.lamp n d)) : (deliverEntry new e on s).lmp = s.lmp := by
  rcases action : e.action with _ | (⟨n, d⟩ | c | _ | _ | _ | _)
  case some.lamp => exact absurd action (h n d)
  case some.cue => cases on <;> simp [deliverEntry, action]
  all_goals simp [deliverEntry, action]

theorem deliverEntry_smk (h : e.action ≠ some .smoke) : (deliverEntry new e on s).smk = s.smk := by
  rcases action : e.action with _ | (⟨n, d⟩ | c | _ | _ | _ | _)
  case some.smoke => exact absurd action h
  case some.cue => cases on <;> simp [deliverEntry, action]
  all_goals simp [deliverEntry, action]

theorem deliverEntry_snd (cue : ∀ c, e.action ≠ some (.cue c)) (mute : e.action ≠ some .mute) :
    (deliverEntry new e on s).snd = s.snd := by
  rcases action : e.action with _ | (⟨n, d⟩ | c | _ | _ | _ | _)
  case some.cue => exact absurd action (cue c)
  case some.mute => exact absurd action mute
  all_goals simp [deliverEntry, action]

theorem deliverEntry_mbr (h : e.action ≠ some .shunt) : (deliverEntry new e on s).mbr = s.mbr := by
  rcases action : e.action with _ | (⟨n, d⟩ | c | _ | _ | _ | _)
  case some.shunt => exact absurd action h
  case some.cue => cases on <;> simp [deliverEntry, action]
  all_goals simp [deliverEntry, action]

theorem deliverEntry_trc (shunt : e.action ≠ some .shunt) (momentum : e.action ≠ some .momentumOff) :
    (deliverEntry new e on s).trc = s.trc := by
  rcases action : e.action with _ | (⟨n, d⟩ | c | _ | _ | _ | _)
  case some.shunt => exact absurd action shunt
  case some.momentumOff => exact absurd action momentum
  case some.cue => cases on <;> simp [deliverEntry, action]
  all_goals simp [deliverEntry, action]

end

/-! ### The deliveries of a walk -/

/-- The deliveries of entries that have activated (`true`) or deactivated (`false`), in order. -/
def deliverAll (new : Outputs) (events : List (MapEntry × Bool)) (s : State) : State :=
  events.foldl (fun u x => deliverEntry new x.1 x.2 u) s

theorem deliverAll_cons (new : Outputs) (x : MapEntry × Bool) (rest : List (MapEntry × Bool)) (s : State) :
    deliverAll new (x :: rest) s = deliverAll new rest (deliverEntry new x.1 x.2 s) := rfl

theorem deliverAll_append (new : Outputs) (l l' : List (MapEntry × Bool)) (s : State) :
    deliverAll new (l ++ l') s = deliverAll new l' (deliverAll new l s) := List.foldl_append

@[simp] theorem deliverAll_keeps (new : Outputs) (events : List (MapEntry × Bool)) (s : State) :
    (deliverAll new events s).cli = s.cli ∧ (deliverAll new events s).dsp = s.dsp ∧
    (deliverAll new events s).tbs = s.tbs ∧ (deliverAll new events s).cam = s.cam ∧
    (deliverAll new events s).ppm = s.ppm ∧ (deliverAll new events s).store = s.store ∧
    (deliverAll new events s).samples = s.samples ∧ (deliverAll new events s).free = s.free ∧
    (deliverAll new events s).pending = s.pending := by
  induction events generalizing s with
  | nil => simp [deliverAll]
  | cons x rest ih => simp [deliverAll_cons, ih]

/-- The functions, and FNU's copies of the conditions and the drive direction, are as they were. -/
@[simp] theorem deliverAll_copies (new : Outputs) (events : List (MapEntry × Bool)) (s : State) :
    (deliverAll new events s).fnu.functions = s.fnu.functions ∧
      (deliverAll new events s).fnu.conditions = s.fnu.conditions ∧
      (deliverAll new events s).fnu.drive = s.fnu.drive := by
  induction events generalizing s with
  | nil => simp [deliverAll]
  | cons x rest ih =>
    obtain ⟨w, fnu⟩ := deliverEntry_fnu new s x.1 x.2
    simp [deliverAll_cons, ih, fnu]

/-! ### One output along a walk -/

/-- An output of FNU: the entries that bear it, its level among the levels delivered, what its target holds for it, and what
the target comes to hold once the new level has been delivered to it. -/
structure Output (α β : Type) where
  bears : MapEntry → Bool
  level : Outputs → α
  target : State → β
  reached : State → β

/-- Along a walk of entries that meet `meets`, from states that meet `sound`, an entry that bears the output delivers it, and
no other entry touches it. -/
structure Output.Follows {α β : Type} [DecidableEq α] (o : Output α β) (new : Outputs) (sound : State → Prop)
    (meets : MapEntry → Prop) : Prop where
  keeps : ∀ s e on, sound s → meets e → sound (deliverEntry new e on s)
  own : ∀ s e on, sound s → meets e → o.bears e = true →
    o.level (deliveredAfter new e s.fnu.delivered) = o.level new ∧
      o.target (deliverEntry new e on s) =
        if o.level s.fnu.delivered = o.level new then o.target s else o.reached s
  other : ∀ s e on, sound s → meets e → o.bears e = false →
    o.level (deliveredAfter new e s.fnu.delivered) = o.level s.fnu.delivered ∧
      o.target (deliverEntry new e on s) = o.target s ∧ o.reached (deliverEntry new e on s) = o.reached s

section
variable {α β : Type} [DecidableEq α] {o : Output α β} {new : Outputs} {sound : State → Prop} {meets : MapEntry → Prop}
  (follows : o.Follows new sound meets)
include follows

/-- The first entry that bears the output delivers it; later ones find it delivered. -/
theorem Output.Follows.deliverAll {events : List (MapEntry × Bool)} (all : ∀ x ∈ events, meets x.1) {s : State}
    (hs : sound s) :
    o.level (deliverAll new events s).fnu.delivered =
        (if events.any (fun x => o.bears x.1) then o.level new else o.level s.fnu.delivered) ∧
      o.target (Laws.deliverAll new events s) =
        if events.any (fun x => o.bears x.1) = true ∧ o.level s.fnu.delivered ≠ o.level new then o.reached s
        else o.target s := by
  induction events generalizing s with
  | nil => simp [Laws.deliverAll]
  | cons x rest ih =>
    obtain ⟨first, later⟩ := List.forall_mem_cons.mp all
    obtain ⟨level, target⟩ := ih later (follows.keeps s x.1 x.2 hs first)
    rw [deliverAll_cons, level, target, deliverEntry_delivered, List.any_cons]
    cases bears : o.bears x.1 with
    | true =>
      obtain ⟨ownLevel, ownTarget⟩ := follows.own s x.1 x.2 hs first bears
      rw [ownLevel, ownTarget]
      simp
    | false =>
      obtain ⟨otherLevel, otherTarget, otherReached⟩ := follows.other s x.1 x.2 hs first bears
      rw [otherLevel, otherTarget, otherReached, Bool.false_or]
      exact ⟨rfl, rfl⟩

/-- An output that some entry of the walk bears if its level differs comes to its new level, once. -/
theorem Output.Follows.delivered {events : List (MapEntry × Bool)} (all : ∀ x ∈ events, meets x.1) {s : State}
    (hs : sound s) (borne : o.level s.fnu.delivered ≠ o.level new → events.any (fun x => o.bears x.1) = true) :
    o.level (Laws.deliverAll new events s).fnu.delivered = o.level new ∧
      o.target (Laws.deliverAll new events s) =
        if o.level s.fnu.delivered = o.level new then o.target s else o.reached s := by
  obtain ⟨level, target⟩ := follows.deliverAll all hs
  rw [level, target]
  by_cases same : o.level s.fnu.delivered = o.level new
  · simp [same]
  · simp [same, borne same]

end

/-! ### The outputs (R63 to R65) -/

/-- The levels delivered are those of eight lamp outputs, and of the rest. -/
abbrev lampsSized (s : State) : Prop := s.fnu.delivered.lamps.length = 8

theorem lampsSized_deliverEntry (new : Outputs) {s : State} (e : MapEntry) (on : Bool) (h : lampsSized s) :
    lampsSized (deliverEntry new e on s) := by
  rw [lampsSized, deliverEntry_delivered]
  rcases action : e.action with _ | (⟨n, d⟩ | c | _ | _ | _ | _) <;> simp only [deliveredAfter, action] <;>
    simpa [setAt] using h

section
variable (new : Outputs)

def lampOutput (n : Nat) : Output (Option LampDemand) Lamp where
  bears e := (lampOf n e).isSome
  level d := d.lamps.getD n none
  target s := lampAt s.lmp n
  reached s := lampAt (lampDemanded s n (new.lamps.getD n none)).lmp n

def smokeOutput : Output Bool Smk where
  bears e := e.action = some .smoke
  level d := d.smoke
  target s := s.smk
  reached s := (smokeEnable s new.smoke).smk

def momentumOutput : Output Bool Bool where
  bears e := e.action = some .momentumOff
  level d := d.momentumOff
  target s := s.trc.momentumOff
  reached _ := new.momentumOff

/-- Shunt reaches TRC; the momentum-off flag is an output of its own. -/
def shuntOutput : Output Bool Trc where
  bears e := e.action = some .shunt
  level d := d.shunt
  target s := { s.trc with momentumOff := false }
  reached s := { (tractionShunt s new.shunt).trc with momentumOff := false }

/-- Mute as a flag of SND. -/
def muteOutput : Output Bool Bool where
  bears e := e.action = some .mute
  level d := d.mute
  target s := s.snd.mute
  reached _ := new.mute

/-- Mute with all that it does to the voices. -/
def silenceOutput : Output Bool Snd where
  bears e := e.action = some .mute
  level d := d.mute
  target s := s.snd
  reached s := (soundMute s new.mute).snd

theorem lampOutput_follows {n : Nat} (hn : n < 8) : (lampOutput new n).Follows new lampsSized fun _ => True where
  keeps s e on h _ := lampsSized_deliverEntry new e on h
  own s e on h _ bears := by
    rcases action : e.action with _ | (⟨m, d⟩ | c | _ | _ | _ | _) <;> simp [lampOutput, lampOf, action] at bears
    subst bears
    obtain ⟨-, lmp⟩ := deliverLamp_spec new s m
    have room : m < s.fnu.delivered.lamps.length := by omega
    refine ⟨by simp [lampOutput, deliveredAfter, action, setAt, room], ?_⟩
    simp only [lampOutput, deliverEntry, action, lmp]
    exact apply_ite (fun l => lampAt l m) _ _ _
  other s e on _ _ bears := by
    by_cases lamp : ∃ m d, e.action = some (.lamp m d)
    · obtain ⟨m, d, action⟩ := lamp
      have ne : m ≠ n := by
        rintro rfl
        simp [lampOutput, lampOf, action] at bears
      obtain ⟨-, lmp⟩ := deliverLamp_spec new s m
      have output : lampAt (deliverLamp new m s).lmp n = lampAt s.lmp n := by
        rw [lmp]
        split
        · rfl
        · rw [lampAt_lampDemanded, if_neg (fun h => ne h.1)]
      refine ⟨by simp [lampOutput, deliveredAfter, action, setAt, ne], ?_, ?_⟩ <;>
        simp only [lampOutput, deliverEntry, action]
      · exact output
      · refine lampAt_lampDemanded_congr _ (by simp) output ?_ ?_ ?_ <;> rw [lmp] <;> split <;> simp
    · have none_ : ∀ m d, e.action ≠ some (.lamp m d) := fun m d h => lamp ⟨m, d, h⟩
      have lmp := deliverEntry_lmp new s on none_
      have level : (deliveredAfter new e s.fnu.delivered).lamps = s.fnu.delivered.lamps := by
        rcases action : e.action with _ | (⟨m, d⟩ | c | _ | _ | _ | _) <;> simp only [deliveredAfter, action]
        exact absurd action (none_ m d)
      refine ⟨congrArg (fun l => l.getD n none) level, congrArg (fun l => lampAt l n) lmp, ?_⟩
      exact lampAt_lampDemanded_congr _ (by simp) (by rw [lmp]) (by rw [lmp]) (by rw [lmp]) (by rw [lmp])

theorem smokeOutput_follows : (smokeOutput new).Follows new (fun _ => True) fun _ => True where
  keeps _ _ _ _ _ := trivial
  own s e on _ _ bears := by
    have action : e.action = some .smoke := of_decide_eq_true bears
    obtain ⟨-, smk⟩ := deliverSmoke_spec new s
    refine ⟨by simp only [smokeOutput, deliveredAfter, action], ?_⟩
    simp only [smokeOutput, deliverEntry, action]
    exact smk
  other s e on _ _ bears := by
    have action : e.action ≠ some .smoke := of_decide_eq_false bears
    have smk := deliverEntry_smk new s on action
    refine ⟨?_, smk, smokeEnable_smk_congr _ (by simp) smk⟩
    simp only [smokeOutput, deliveredAfter]
    split <;> simp_all

theorem momentumOutput_follows : (momentumOutput new).Follows new (fun _ => True) fun _ => True where
  keeps _ _ _ _ _ := trivial
  own s e on _ _ bears := by
    have action : e.action = some .momentumOff := of_decide_eq_true bears
    obtain ⟨-, trc⟩ := deliverMomentum_spec new s
    simp only [momentumOutput, deliveredAfter, deliverEntry, action, trc, true_and]
    exact apply_ite (fun t : Trc => t.momentumOff) _ _ _
  other s e on _ _ bears := by
    have action : e.action ≠ some .momentumOff := of_decide_eq_false bears
    refine ⟨?_, ?_, rfl⟩
    · simp only [momentumOutput, deliveredAfter]
      split <;> simp_all
    · by_cases shunt : e.action = some .shunt
      · obtain ⟨-, trc⟩ := deliverShunt_spec new s
        simp only [momentumOutput, deliverEntry, shunt, trc]
        split
        · rfl
        · exact tractionShunt_momentumOff s _
      · exact congrArg (fun t : Trc => t.momentumOff) (deliverEntry_trc new s on shunt action)

theorem shuntOutput_follows : (shuntOutput new).Follows new (fun _ => True) fun _ => True where
  keeps _ _ _ _ _ := trivial
  own s e on _ _ bears := by
    have action : e.action = some .shunt := of_decide_eq_true bears
    obtain ⟨-, trc⟩ := deliverShunt_spec new s
    simp only [shuntOutput, deliveredAfter, deliverEntry, action, trc, true_and]
    exact apply_ite (fun t : Trc => ({ t with momentumOff := false } : Trc)) _ _ _
  other s e on _ _ bears := by
    have action : e.action ≠ some .shunt := of_decide_eq_false bears
    have mbr := deliverEntry_mbr new s on action
    obtain ⟨b, trc⟩ : ∃ b, (deliverEntry new e on s).trc = { s.trc with momentumOff := b } := by
      by_cases momentum : e.action = some .momentumOff
      · obtain ⟨-, trc⟩ := deliverMomentum_spec new s
        simp only [deliverEntry, momentum, trc]
        split
        · exact ⟨_, rfl⟩
        · exact ⟨_, rfl⟩
      · exact ⟨_, deliverEntry_trc new s on action momentum⟩
    refine ⟨?_, ?_, ?_⟩
    · simp only [shuntOutput, deliveredAfter]
      split <;> simp_all
    · simp only [shuntOutput, trc]
    · simp only [shuntOutput, tractionShunt_trc_congr (by simp) new.shunt mbr trc]

theorem muteOutput_follows : (muteOutput new).Follows new (fun _ => True) fun _ => True where
  keeps _ _ _ _ _ := trivial
  own s e on _ _ bears := by
    have action : e.action = some .mute := of_decide_eq_true bears
    obtain ⟨-, snd⟩ := deliverMute_spec new s
    simp only [muteOutput, deliveredAfter, deliverEntry, action, snd, true_and]
    refine (apply_ite (fun n : Snd => n.mute) _ _ _).trans ?_
    rw [soundMute_eq]
    rfl
  other s e on _ _ bears := by
    have action : e.action ≠ some .mute := of_decide_eq_false bears
    refine ⟨?_, ?_, rfl⟩
    · simp only [muteOutput, deliveredAfter]
      split <;> simp_all
    · by_cases cue : ∃ c, e.action = some (.cue c)
      · obtain ⟨c, cue⟩ := cue
        simp only [muteOutput, deliverEntry, cue]
        cases on <;> simp
      · exact congrArg (fun n : Snd => n.mute) (deliverEntry_snd new s on (fun c h => cue ⟨c, h⟩) action)

/-- With no cue in the walk and shunt at its level already, mute alone acts on SND. -/
theorem silenceOutput_follows :
    (silenceOutput new).Follows new (fun s => s.fnu.delivered.shunt = new.shunt)
      fun e => ∀ c, e.action ≠ some (.cue c) where
  keeps s e on h _ := by
    rw [deliverEntry_delivered, deliveredAfter]
    split <;> simp_all
  own s e on _ _ bears := by
    have action : e.action = some .mute := of_decide_eq_true bears
    obtain ⟨-, snd⟩ := deliverMute_spec new s
    refine ⟨by simp only [silenceOutput, deliveredAfter, action], ?_⟩
    simp only [silenceOutput, deliverEntry, action]
    exact snd
  other s e on level cue bears := by
    have action : e.action ≠ some .mute := of_decide_eq_false bears
    have snd := deliverEntry_snd new s on cue action
    have moving : (deliverEntry new e on s).trc.published = s.trc.published := by
      by_cases shunt : e.action = some .shunt
      · obtain ⟨-, trc⟩ := deliverShunt_spec new s
        simp only [deliverEntry, shunt, trc, if_pos level]
      · by_cases momentum : e.action = some .momentumOff
        · obtain ⟨-, trc⟩ := deliverMomentum_spec new s
          simp only [deliverEntry, momentum, trc]
          split <;> rfl
        · rw [deliverEntry_trc new s on shunt momentum]
    refine ⟨?_, snd, soundMute_snd_congr _ (by simp) snd (by rw [moving])⟩
    simp only [silenceOutput, deliveredAfter]
    split <;> simp_all

end

end Sys2Proof.Laws
end

section
/-!
PROOFS. The installation of a MAP table (R67): its walk as deliveries one after another, that every output whose level changes
is borne by a changed entry, and so what the installation delivers.
-/
namespace Sys2Proof.Laws

open Sys2Proof.Machine

/-! ### Triggers and releases along a walk -/

/-- The cue that an entry triggers or releases. -/
def cueOf (x : MapEntry × Bool) : Option (Nat × Bool) :=
  match x.1.action with
  | some (.cue c) => some (c, x.2)
  | _ => none

theorem cueOf_eq_none_iff (x : MapEntry × Bool) : cueOf x = none ↔ ∀ c, x.1.action ≠ some (.cue c) := by
  simp only [cueOf]
  split <;> simp_all

/-- With mute at its level already, SND takes the triggers and releases in order, and nothing else. -/
theorem deliverAll_snd {new : Outputs} (events : List (MapEntry × Bool)) {s : State}
    (mute : s.fnu.delivered.mute = new.mute) :
    (deliverAll new events s).snd = (cuesDelivered (events.filterMap cueOf) s).snd := by
  induction events generalizing s with
  | nil => rfl
  | cons x rest ih =>
    have level : (deliverEntry new x.1 x.2 s).fnu.delivered.mute = new.mute := by
      rw [deliverEntry_delivered, deliveredAfter]
      split <;> simp_all
    rw [deliverAll_cons, ih level]
    cases cue : cueOf x with
    | some c =>
      have delivery : deliverEntry new x.1 x.2 s = cuesDelivered [c] s := by
        simp only [cueOf] at cue
        split at cue
        case h_1 c' action =>
          cases cue
          simp [deliverEntry, action, cuesDelivered]
        case h_2 => cases cue
      rw [List.filterMap_cons_some cue, delivery]
      rfl
    | none =>
      have noCue := (cueOf_eq_none_iff x).mp cue
      have snd : (deliverEntry new x.1 x.2 s).snd = s.snd := by
        by_cases muted : x.1.action = some .mute
        · obtain ⟨-, snd⟩ := deliverMute_spec new s
          simp only [deliverEntry, muted, snd, if_pos mute]
        · exact deliverEntry_snd new s x.2 noCue muted
      rw [List.filterMap_cons_none cue]
      exact cuesDelivered_snd_congr _ (by simp) snd

/-! ### All the outputs of a walk -/

/-- Every output whose level is to change is borne by an entry of the walk. -/
structure Borne (events : List (MapEntry × Bool)) (d new : Outputs) : Prop where
  lamps : ∀ n, n < 8 → d.lamps.getD n none ≠ new.lamps.getD n none → events.any (fun x => (lampOf n x.1).isSome) = true
  smoke : d.smoke ≠ new.smoke → events.any (fun x => x.1.action = some .smoke) = true
  mute : d.mute ≠ new.mute → events.any (fun x => x.1.action = some .mute) = true
  shunt : d.shunt ≠ new.shunt → events.any (fun x => x.1.action = some .shunt) = true
  momentumOff : d.momentumOff ≠ new.momentumOff → events.any (fun x => x.1.action = some .momentumOff) = true

theorem outputs_ext {d new : Outputs} (size : d.lamps.length = 8) (size' : new.lamps.length = 8)
    (lamps : ∀ n, n < 8 → d.lamps.getD n none = new.lamps.getD n none) (smoke : d.smoke = new.smoke)
    (mute : d.mute = new.mute) (shunt : d.shunt = new.shunt) (momentumOff : d.momentumOff = new.momentumOff) :
    d = new := by
  have same : d.lamps = new.lamps := by
    refine List.ext_getElem (size.trans size'.symm) fun n h h' => ?_
    have level := lamps n (by omega)
    rwa [List.getD_eq_getElem _ _ h, List.getD_eq_getElem _ _ h'] at level
  cases d
  cases new
  simp_all

theorem lampsSized_deliverAll (new : Outputs) (events : List (MapEntry × Bool)) {s : State} (h : lampsSized s) :
    lampsSized (deliverAll new events s) := by
  induction events generalizing s with
  | nil => exact h
  | cons x rest ih => exact ih (lampsSized_deliverEntry new x.1 x.2 h)

theorem deliverAll_deliveries {new : Outputs} {events : List (MapEntry × Bool)} {s : State} (size : lampsSized s)
    (size' : new.lamps.length = 8) (borne : Borne events s.fnu.delivered new) :
    Deliveries s (deliverAll new events s) new (events.filterMap cueOf) := by
  have free (x : MapEntry × Bool) (_ : x ∈ events) : True := trivial
  have lamps {n : Nat} (hn : n < 8) := (lampOutput_follows new hn).delivered free size (borne.lamps n hn)
  obtain ⟨smoke, smk⟩ := (smokeOutput_follows new).delivered free trivial borne.smoke
  obtain ⟨mute, muted⟩ := (muteOutput_follows new).delivered free trivial borne.mute
  obtain ⟨shunt, shunted⟩ := (shuntOutput_follows new).delivered free trivial borne.shunt
  obtain ⟨momentum, landed⟩ := (momentumOutput_follows new).delivered free trivial borne.momentumOff
  obtain ⟨functions, conditions, drive⟩ := deliverAll_copies new events s
  refine ⟨fun p hp => ?_, ?_, functions, conditions, drive, fun n hn => (lamps hn).2, smk, deliverAll_snd events,
    fun differs => ⟨muted.trans (if_neg differs), fun noCues level => ?_⟩, landed, ?_⟩
  · cases p <;> simp_all [partSame]
  · exact outputs_ext (lampsSized_deliverAll new events size) size' (fun n hn => (lamps hn).1) smoke mute shunt momentum
  · have quiet (x : MapEntry × Bool) (hx : x ∈ events) : ∀ c, x.1.action ≠ some (.cue c) :=
      (cueOf_eq_none_iff x).mp (List.filterMap_eq_nil_iff.mp noCues x hx)
    obtain ⟨-, snd⟩ := (silenceOutput_follows new).delivered quiet level borne.mute
    exact snd.trans (if_neg differs)
  · have back (t u : Trc) (h : { t with momentumOff := false } = { u with momentumOff := false }) :
        t = { u with momentumOff := t.momentumOff } := by
      simp only [Trc.mk.injEq] at h
      cases t
      simp_all
    refine back _ _ (shunted.trans ?_)
    exact (apply_ite (fun t : Trc => ({ t with momentumOff := false } : Trc)) _ _ _).symm

/-! ### The changes between two maps (R67) -/

/-- An entry that changes: the old one, if active, has deactivated, and the new one, if active, has activated. -/
def changesOf (x : MapEntry × MapEntry) (old now : Bool) : List (MapEntry × Bool) :=
  if sameEntry x.1 x.2 then [] else (if old then [(x.1, false)] else []) ++ (if now then [(x.2, true)] else [])

theorem installEntry_eq (new : Outputs) (x : MapEntry × MapEntry) (old now : Bool) (s : State) :
    installEntry new x old now s = deliverAll new (changesOf x old now) s := by
  simp only [installEntry, changesOf]
  split
  · rfl
  · cases old <;> cases now <;> rfl

theorem installWalk_eq (new : Outputs) (l : List ((MapEntry × MapEntry) × Bool × Bool)) (s : State) :
    installWalk new l s = deliverAll new (l.flatMap fun y => changesOf y.1 y.2.1 y.2.2) s := by
  induction l generalizing s with
  | nil => rfl
  | cons y rest ih =>
    rw [List.flatMap_cons, deliverAll_append, ← installEntry_eq, ← ih]
    rfl

/-- The changes between two maps, entry by entry, for the functions and conditions as they stand. -/
def mapChanges (f : Fnu) (old new : List MapEntry) : List (MapEntry × Bool) :=
  (old.zip new).flatMap fun x => changesOf x (entryActive f x.1) (entryActive f x.2)

theorem zip_zip_map {α β : Type} (f : α → β) (l l' : List α) :
    (l.zip l').zip ((l.map f).zip (l'.map f)) = (l.zip l').map fun x => (x, f x.1, f x.2) := by
  induction l generalizing l' with
  | nil => rfl
  | cons a rest ih =>
    cases l' with
    | nil => rfl
    | cons b rest' => simp [ih]

/-- The installation of a map over one whose activity is kept. -/
theorem mapInstalled_eq {s : State} {oldMap : List Byte}
    (kept : s.fnu.activity = (mapEntries oldMap).map (entryActive s.fnu)) :
    let entries := mapEntries s.tbs.active.map
    mapInstalled s oldMap =
      keepActivity (deliverAll (outputsFor (entries.filter (entryActive s.fnu)))
        (mapChanges s.fnu (mapEntries oldMap) entries) s) (entries.map (entryActive s.fnu)) := by
  intro entries
  rw [mapInstalled, kept, zip_zip_map, installWalk_eq, List.flatMap_map]
  rfl

/-- An unused entry is not active. -/
theorem used_of_entryActive {f : Fnu} {e : MapEntry} (h : entryActive f e = true) : e.used = true := by
  simp only [entryActive, Bool.and_eq_true] at h
  obtain ⟨⟨⟨used, -⟩, -⟩, -⟩ := h
  exact used

section
variable (f : Fnu) (bears : MapEntry → Bool)

/-- If no change bears an output, the two entries bear it alike. -/
theorem changesOf_unborne {a b : MapEntry}
    (h : (changesOf (a, b) (entryActive f a) (entryActive f b)).any (fun x => bears x.1) = false) :
    (entryActive f a && bears a) = (entryActive f b && bears b) ∧ ((entryActive f a && bears a) = true → a = b) := by
  simp only [changesOf] at h
  split at h
  case isTrue same =>
    simp only [sameEntry, Bool.or_eq_true, Bool.and_eq_true, Bool.not_eq_true', decide_eq_true_eq] at same
    rcases same with ⟨unused, unused'⟩ | rfl
    · have inactive {e : MapEntry} (h : e.used = false) : entryActive f e = false := by
        by_contra active
        rw [used_of_entryActive (Bool.eq_true_of_not_eq_false active)] at h
        cases h
      simp [inactive unused, inactive unused']
    · exact ⟨rfl, fun _ => rfl⟩
  case isFalse =>
    cases active : entryActive f a <;> cases active' : entryActive f b <;> simp_all

/-- If no change between two maps bears an output, the active entries that bear it are the same. -/
theorem filter_eq_of_unborne {old new : List MapEntry} (size : old.length = new.length)
    (h : (mapChanges f old new).any (fun x => bears x.1) = false) :
    old.filter (fun e => entryActive f e && bears e) = new.filter (fun e => entryActive f e && bears e) := by
  induction old generalizing new with
  | nil => rw [List.eq_nil_of_length_eq_zero size.symm]
  | cons a rest ih =>
    cases new with
    | nil => cases size
    | cons b rest' =>
      simp only [mapChanges, List.zip_cons_cons, List.flatMap_cons, List.any_append, Bool.or_eq_false_iff] at h
      obtain ⟨first, later⟩ := h
      obtain ⟨alike, same⟩ := changesOf_unborne f bears first
      have tail := ih (Nat.succ.inj size) later
      rw [List.filter_cons, List.filter_cons, ← alike, tail]
      split
      case isTrue both => rw [same both]
      case isFalse => rfl

/-- An output that the active entries bearing it decide changes only with a change that bears it. -/
theorem borne_of_level_ne {α : Type} {level : Outputs → α}
    (decided : ∀ active, level (outputsFor active) = level (outputsFor (active.filter bears)))
    {old new : List MapEntry} (size : old.length = new.length)
    (ne : level (outputsFor (old.filter (entryActive f))) ≠ level (outputsFor (new.filter (entryActive f)))) :
    (mapChanges f old new).any (fun x => bears x.1) = true := by
  by_contra unborne
  refine ne ?_
  have both (l : List MapEntry) :
      (l.filter (entryActive f)).filter bears = l.filter (fun e => entryActive f e && bears e) := by
    rw [List.filter_filter]
    exact List.filter_congr fun e _ => Bool.and_comm _ _
  rw [decided, decided (new.filter _), both, both, filter_eq_of_unborne f bears size (Bool.eq_false_of_not_eq_true unborne)]

end

theorem actionActive_filter (active : List MapEntry) (a : Action) :
    actionActive active a = actionActive (active.filter (fun e => e.action = some a)) a := by
  simp [actionActive, List.any_filter]

theorem findSome?_filter_isSome {α β : Type} (g : α → Option β) (l : List α) :
    (l.filter (fun x => (g x).isSome)).findSome? g = l.findSome? g := by
  induction l with
  | nil => rfl
  | cons x rest ih => cases found : g x <;> simp [found, ih]

theorem outputsFor_lamp (active : List MapEntry) {n : Nat} (hn : n < 8) :
    (outputsFor active).lamps.getD n none = active.findSome? (lampOf n) := by
  simp [outputsFor, List.getD_eq_getElem?_getD, hn, lampDemandFor]

/-- Every output whose level differs between two maps is borne by a change between them (R67). -/
theorem borne_mapChanges (f : Fnu) {old new : List MapEntry} (size : old.length = new.length) :
    Borne (mapChanges f old new) (outputsFor (old.filter (entryActive f))) (outputsFor (new.filter (entryActive f))) where
  lamps n hn := borne_of_level_ne f (fun e => (lampOf n e).isSome) (level := fun d => d.lamps.getD n none)
    (fun active => by simp only [outputsFor_lamp _ hn, findSome?_filter_isSome]) size
  smoke := borne_of_level_ne f _ (level := Outputs.smoke) (fun active => actionActive_filter active _) size
  mute := borne_of_level_ne f _ (level := Outputs.mute) (fun active => actionActive_filter active _) size
  shunt := borne_of_level_ne f _ (level := Outputs.shunt) (fun active => actionActive_filter active _) size
  momentumOff := borne_of_level_ne f _ (level := Outputs.momentumOff) (fun active => actionActive_filter active _) size

/-- The installation of a map in `s`, whose activity and delivered levels are those of the old map (R67). -/
theorem mapInstalled_deliveries {s : State} {oldMap : List Byte}
    (kept : s.fnu.activity = (mapEntries oldMap).map (entryActive s.fnu))
    (delivered : s.fnu.delivered = outputsFor (activeEntries s.fnu (mapEntries oldMap))) :
    let entries := mapEntries s.tbs.active.map
    (mapInstalled s oldMap).fnu.activity = entries.map (entryActive s.fnu) ∧
      Deliveries s (mapInstalled s oldMap) (outputsFor (entries.filter (entryActive s.fnu)))
        ((mapChanges s.fnu (mapEntries oldMap) entries).filterMap cueOf) := by
  intro entries
  have sizes (l : List MapEntry) : (outputsFor l).lamps.length = 8 := by simp [outputsFor]
  have borne := borne_mapChanges s.fnu (old := mapEntries oldMap) (new := entries) (by simp [mapEntries, entries])
  rw [← activeEntries, ← delivered] at borne
  obtain ⟨same, rest⟩ := deliverAll_deliveries ((congrArg (fun d => d.lamps.length) delivered).trans (sizes _)) (sizes _) borne
  rw [mapInstalled_eq kept]
  refine ⟨rfl, fun p hp => ?_, rest⟩
  have before := same p hp
  cases p <;> first | exact before | simp at hp

end Sys2Proof.Laws
end

section
/-!
SUPPORT. What the presence comparators make of settings newly in force: each supply by its own voltage and its own reading before,
and the whole as one presence command where one reading alone changes (R182).
-/
namespace Sys2Proof.Laws

open Sys2Proof.Machine

/-! ### What PPM holds of the supplies outlives the caps and the power states -/

section
variable (s : State) (x : Supply)

@[simp] theorem supplyOf_powerEnd : supplyOf (powerEnd s).ppm x = supplyOf s.ppm x := by
  have dcap : supplyOf (publishDcap s).ppm x = supplyOf s.ppm x := by
    simp only [publishDcap]
    split
    · rfl
    · cases x <;> simp [supplyOf]
  have hmax (u : State) : supplyOf (publishHmax u).ppm x = supplyOf u.ppm x := by
    simp only [publishHmax]
    split
    · rfl
    · cases x <;> simp [supplyOf]
  have cap (u : State) : supplyOf (publishSoundCap u).ppm x = supplyOf u.ppm x := by
    simp only [publishSoundCap]
    split
    · rfl
    · cases x <;> simp [supplyOf]
  rw [powerEnd, cap, hmax, dcap]

@[simp] theorem supplyOf_enterNormal : supplyOf (enterNormal s).ppm x = supplyOf s.ppm x := by
  simp only [enterNormal]
  split <;> cases x <;> simp [supplyOf]

@[simp] theorem supplyOf_enterCoast : supplyOf (enterCoast s).ppm x = supplyOf s.ppm x := by
  cases x <;> simp [supplyOf, enterCoast]

/-- The loss of the active source moves the source, and leaves what is held of each supply. -/
@[simp] theorem supplyOf_activeLost (lost : Supply) : supplyOf (activeLost s lost).ppm x = supplyOf s.ppm x := by
  have active (u : State) (y : Supply) : supplyOf (supplyActive u y).ppm x = supplyOf u.ppm x := by
    simp only [supplyActive]
    split
    · cases x <;> rfl
    · rw [supplyOf_enterNormal]
      cases x <;> rfl
  have buffer : supplyOf (bufferActive s).ppm x = supplyOf s.ppm x := by
    simp only [bufferActive]
    split
    · rw [supplyOf_enterCoast]
      cases x <;> rfl
    · cases x <;> rfl
  simp only [activeLost]
  split
  · exact active s _
  · exact buffer

/-- A fast return is marked at the supply that it is for. -/
theorem supplyOf_fastReturnRaise :
    (∃ r, supplyOf (fastReturnRaise s x).ppm x = { supplyOf s.ppm x with fastReturn := r }) ∧
      supplyOf (fastReturnRaise s x).ppm (otherSupply x) = supplyOf s.ppm (otherSupply x) := by
  simp only [fastReturnRaise]
  split
  · simp [injectRaised]
  · exact ⟨⟨_, rfl⟩, rfl⟩

/-- A supply that gains its presence starts to qualify if it was ABSENT; the other is not touched. -/
theorem supplyOf_presenceGain :
    supplyOf (presenceGain s x).ppm x =
        (if (supplyOf s.ppm x).qualification = .absent then
          { supplyOf s.ppm x with qualification := .qualifying, timer := some (qualificationTime x) }
        else supplyOf s.ppm x) ∧
      supplyOf (presenceGain s x).ppm (otherSupply x) = supplyOf s.ppm (otherSupply x) := by
  simp only [presenceGain, startQualifying, supplyOf_powerEnd]
  split <;> simp

/-- A supply that loses its presence is ABSENT with its timer stopped; the other is not touched. -/
theorem supplyOf_presenceLoss :
    (∃ r, supplyOf (presenceLoss s x).ppm x =
        { supplyOf s.ppm x with qualification := .absent, timer := none, fastReturn := r }) ∧
      supplyOf (presenceLoss s x).ppm (otherSupply x) = supplyOf s.ppm (otherSupply x) := by
  simp only [presenceLoss, supplyOf_powerEnd]
  split
  · obtain ⟨⟨r, own⟩, other⟩ := supplyOf_fastReturnRaise (activeLost (supplyAbsent s x) x) x
    rw [own, other, supplyOf_activeLost, supplyOf_activeLost, supplyAbsent, supplyOf_setSupply, supplyOf_other_setSupply]
    exact ⟨⟨r, rfl⟩, rfl⟩
  · rw [supplyAbsent, supplyOf_setSupply, supplyOf_other_setSupply]
    exact ⟨⟨_, rfl⟩, rfl⟩

end

/-! ### One comparator -/

/-- What becomes of a supply, from `a` to `c`, as its comparator follows new settings at its kept voltage (R182). -/
structure SupplyFollows (x : Supply) (reads : Bool) (a c : SupplyState) : Prop where
  voltage : c.voltage = a.voltage
  present : c.present = reads
  lost : a.present = true → reads = false → c.qualification = .absent ∧ c.timer = none
  gained : a.present = false → reads = true → a.qualification = .absent →
    c.qualification = .qualifying ∧ c.timer = some (qualificationTime x)

/-- What a supply's comparator reads at the voltage that PPM holds of it. -/
def readsNow (s : State) (x : Supply) : Bool := readsPresent s x (supplyOf s.ppm x).voltage

section
variable (s : State) (x : Supply)

/-- A reading that does not change is no event. -/
theorem presenceFollows_of_same (same : readsNow s x = (supplyOf s.ppm x).present) : presenceFollows s x = s := by
  have kept : comparatorReads s x (supplyOf s.ppm x).voltage = s := by
    rw [comparatorReads, ← readsNow, same]
    cases x <;> rfl
  rw [presenceFollows, kept, presenceEvent, if_pos rfl]

theorem presenceFollows_supply : SupplyFollows x (readsNow s x) (supplyOf s.ppm x) (supplyOf (presenceFollows s x).ppm x) := by
  have read := supplyOf_comparatorReads s x (supplyOf s.ppm x).voltage
  rw [← readsNow] at read
  rcases presenceEvent_cases (supplyOf s.ppm x).present x (comparatorReads s x (supplyOf s.ppm x).voltage) with
    ⟨is, event⟩ | ⟨was, is, event⟩ | ⟨was, is, event⟩ <;> rw [read] at is <;> rw [presenceFollows, event]
  · have same : readsNow s x = (supplyOf s.ppm x).present := is
    rw [read]
    exact ⟨rfl, rfl, fun was now => absurd (now.symm.trans (same.trans was)) (by decide),
      fun was now => absurd (now.symm.trans (same.trans was)) (by decide)⟩
  · obtain ⟨own, -⟩ := supplyOf_presenceGain (comparatorReads s x (supplyOf s.ppm x).voltage) x
    rw [own, read]
    refine ⟨?_, ?_, fun was' => absurd (was.symm.trans was') (by decide), fun _ _ absent => ?_⟩
    · split <;> rfl
    · split <;> rfl
    · rw [if_pos absent]
      exact ⟨rfl, rfl⟩
  · obtain ⟨⟨r, own⟩, -⟩ := supplyOf_presenceLoss (comparatorReads s x (supplyOf s.ppm x).voltage) x
    rw [own, read]
    exact ⟨rfl, rfl, fun _ _ => ⟨rfl, rfl⟩, fun was' => absurd (was.symm.trans was') (by decide)⟩

theorem presenceFollows_other :
    supplyOf (presenceFollows s x).ppm (otherSupply x) = supplyOf s.ppm (otherSupply x) := by
  have read : supplyOf (comparatorReads s x (supplyOf s.ppm x).voltage).ppm (otherSupply x) =
      supplyOf s.ppm (otherSupply x) := by
    rw [comparatorReads, supplyOf_other_setSupply]
  rcases presenceEvent_cases (supplyOf s.ppm x).present x (comparatorReads s x (supplyOf s.ppm x).voltage) with
    ⟨-, event⟩ | ⟨-, -, event⟩ | ⟨-, -, event⟩ <;> rw [presenceFollows, event]
  · exact read
  · exact (supplyOf_presenceGain _ x).2.trans read
  · exact (supplyOf_presenceLoss _ x).2.trans read

/-- A comparator that follows brings the presence command that reads the kept voltage (R182). -/
theorem exec_presenceLost_of_follows (run : running s = true) (now : readsNow s x = false) :
    exec (.presenceLost ⟨x, (supplyOf s.ppm x).voltage⟩) s = .next (fnuSettle (presenceFollows s x)) := by
  refine (congrArg (settled _) (if_neg (by rw [← readsNow, now]; decide))).trans (settled_running ?_)
  cases x <;> exact run

theorem exec_presenceGained_of_follows (run : running s = true) (now : readsNow s x = true) :
    exec (.presenceGained ⟨x, (supplyOf s.ppm x).voltage⟩) s = .next (fnuSettle (presenceFollows s x)) := by
  refine (congrArg (settled _) (if_pos now)).trans (settled_running ?_)
  cases x <;> exact run

end

/-! ### Both comparators (notes/assumptions/20) -/

/-- The track's comparator leaves the battery's reading to come. -/
theorem readsNow_presenceFollows (s : State) (x : Supply) :
    readsNow (presenceFollows s x) (otherSupply x) = readsNow s (otherSupply x) := by
  have level (y : Supply) : presenceLevel (presenceFollows s x) y = presenceLevel s y := by
    cases y <;> simp [presenceLevel, State.trackMin, State.battMin, setting1]
  rw [readsNow, readsNow, presenceFollows_other, readsPresent, readsPresent, level]

theorem settingsInstalled_supply (s : State) (x : Supply) :
    SupplyFollows x (readsNow s x) (supplyOf s.ppm x) (supplyOf (settingsInstalled s).ppm x) := by
  cases x with
  | track =>
    have second := presenceFollows_other (presenceFollows s .track) .battery
    rw [settingsInstalled, show supplyOf _ Supply.track = _ from second]
    exact presenceFollows_supply s .track
  | battery =>
    have first : supplyOf (presenceFollows s .track).ppm .battery = _ := presenceFollows_other s .track
    have reads : readsNow (presenceFollows s .track) .battery = _ := readsNow_presenceFollows s .track
    have second := presenceFollows_supply (presenceFollows s .track) .battery
    rwa [first, reads] at second

/-- Where the other supply's reading does not change, one comparator alone follows. -/
theorem settingsInstalled_of_other (s : State) (x : Supply)
    (same : readsNow s (otherSupply x) = (supplyOf s.ppm (otherSupply x)).present) :
    settingsInstalled s = presenceFollows s x := by
  cases x with
  | track =>
    refine presenceFollows_of_same (presenceFollows s .track) .battery ?_
    exact (readsNow_presenceFollows s .track).trans (same.trans (congrArg _ (presenceFollows_other s .track).symm))
  | battery => rw [settingsInstalled, presenceFollows_of_same s .track same]

theorem settingsInstalled_of_same (s : State) (same : ∀ x, readsNow s x = (supplyOf s.ppm x).present) :
    settingsInstalled s = s := by
  rw [settingsInstalled_of_other s .track (same .battery), presenceFollows_of_same s .track (same .track)]

/-- Both comparators follow settings newly in force: where neither reading changes nothing follows, each supply follows its own
reading, and where one reading alone changes the outcome is that of the presence command (R182). -/
theorem settingsInstalled_spec {b : State} (run : running b = true) :
    ((∀ x, readsNow b x = (supplyOf b.ppm x).present) → settingsInstalled b = b) ∧
      (∀ x, SupplyFollows x (readsNow b x) (supplyOf b.ppm x) (supplyOf (settingsInstalled b).ppm x)) ∧
      ∀ x, readsNow b (otherSupply x) = (supplyOf b.ppm (otherSupply x)).present →
        ((supplyOf b.ppm x).present = true → readsNow b x = false →
          exec (.presenceLost ⟨x, (supplyOf b.ppm x).voltage⟩) b = .next (fnuSettle (settingsInstalled b))) ∧
        ((supplyOf b.ppm x).present = false → readsNow b x = true →
          exec (.presenceGained ⟨x, (supplyOf b.ppm x).voltage⟩) b = .next (fnuSettle (settingsInstalled b))) := by
  refine ⟨settingsInstalled_of_same b, settingsInstalled_supply b, fun x other => ?_⟩
  rw [settingsInstalled_of_other b x other]
  exact ⟨fun _ => exec_presenceLost_of_follows b x run, fun _ => exec_presenceGained_of_follows b x run⟩

end Sys2Proof.Laws
end

section
/-!
SUPPORT. What the owners make of a SPEED, a CUES and a LAMPS table newly in force (R72, R164, R180), and that the editing state
and the store stand apart from what an event at TRC and a delivery of FNU do.
-/
namespace Sys2Proof.Laws

open Sys2Proof.Machine

/-! ### Events beside the editing state and the store -/

section
variable {s u : State} (e : Tbs) (m : PerTable Image)

theorem sameBut_refiled {l : List Part} (tbs : .tbs ∉ l) (same : SameBut l s u) :
    SameBut l (refiled e m s) (refiled e m u) := by
  have active : u.tbs = s.tbs := same .tbs tbs
  intro p hp
  have kept := same p hp
  cases p
  case tbs => exact congrArg (fun b : Tbs => ({ e with active := b.active } : Tbs)) active
  case store => rfl
  all_goals exact kept

theorem tractionEvent_refiled (event : TractionEvent s u) : TractionEvent (refiled e m s) (refiled e m u) := by
  obtain ⟨published, fnu, demand, gap, same⟩ := event
  exact ⟨published, fnu, demand, gap, sameBut_refiled e m (by decide) same⟩

theorem deliveries_refiled {o : Outputs} {cues : List (Nat × Bool)} (deliveries : Deliveries s u o cues) :
    Deliveries (refiled e m s) (refiled e m u) o cues := by
  obtain ⟨same, delivered, functions, conditions, drive, lamps, smoke, sound, mute, momentum, shunt⟩ := deliveries
  refine ⟨sameBut_refiled e m (by decide) same, delivered, functions, conditions, drive, fun n hn => ?_, ?_,
    fun level => ?_, fun differs => ?_, momentum, ?_⟩
  · have demanded (d : Option LampDemand) :
        lampAt (lampDemanded (refiled e m s) n d).lmp n = lampAt (lampDemanded s n d).lmp n :=
      lampAt_lampDemanded_congr (s := s) (t := refiled e m s) d rfl rfl rfl rfl rfl
    simp only [demanded]
    exact lamps n hn
  · have enabled : (smokeEnable (refiled e m s) o.smoke).smk = (smokeEnable s o.smoke).smk :=
      smokeEnable_smk_congr (s := s) (t := refiled e m s) _ rfl rfl
    rw [enabled]
    exact smoke
  · have played : (cuesDelivered cues (refiled e m s)).snd = (cuesDelivered cues s).snd :=
      cuesDelivered_snd_congr (s := s) (t := refiled e m s) _ rfl rfl
    rw [played]
    exact sound level
  · have muted : (soundMute (refiled e m s) o.mute).snd = (soundMute s o.mute).snd :=
      soundMute_snd_congr (s := s) (t := refiled e m s) _ rfl rfl rfl
    rw [muted]
    exact mute differs
  · have shunted : (tractionShunt (refiled e m s) o.shunt).trc = (tractionShunt s o.shunt).trc :=
      tractionShunt_trc_of_same (s := s) (t := refiled e m s) rfl rfl rfl _
    rw [shunted]
    exact shunt

end

/-! ### A SPEED table (R72) -/

/-- TRC once T has been worked out afresh: its drive direction follows at V 0, and with its state its two timers stay. -/
theorem retarget_trc (s : State) :
    let u := retarget s
    u.trc.target = targetFor s s.trc.step ∧ u.trc.state = retargetedState s ∧
      u.trc = { s.trc with target := u.trc.target, state := u.trc.state,
                           drive := if s.trc.ramp = 0 then s.trc.stated else s.trc.drive,
                           bemfTimer := u.trc.bemfTimer, stallTimer := u.trc.stallTimer,
                           outstanding := u.trc.outstanding, published := u.trc.published } ∧
      (u.trc.state = s.trc.state → u.trc.bemfTimer = s.trc.bemfTimer ∧ u.trc.stallTimer = s.trc.stallTimer) := by
  intro u
  obtain ⟨-, p, o, trc⟩ := retarget_ends s
  rw [retargeted_eq] at trc
  refine ⟨?_, ?_, ?_, fun same => ?_⟩
  · rw [trc]
    rfl
  · rw [trc]
    rfl
  · rw [trc]
    rfl
  · rw [trc] at same ⊢
    exact ⟨if_pos same, if_pos same⟩

/-! ### A CUES table (R164) -/

/-- The chuff and pool voices and the resume stack are emptied, and an engine that is ON starts its choice of background. -/
theorem cuesInstalled_snd (s : State) :
    let selected := if s.trc.published.moving then s.bgRunCue else s.bgIdleCue
    (cuesInstalled s).snd = { s.snd with
      chuff := voiceFree, stack := [], pool := s.snd.pool.map (fun _ => voiceFree)
      background := if s.snd.on = false ∨ (s.cueRecord selected).length = 0 then voiceFree
                    else { cue := some selected, position := 0, held := true,
                           volume := (s.cueRecord selected).volume, order := 0 } } := by
  intro selected
  have choice : backgroundChoice (s.setSnd (soundStopped s.snd)) =
      if (s.cueRecord selected).length = 0 then voiceFree
      else { cue := some selected, position := 0, held := true, volume := (s.cueRecord selected).volume, order := 0 } :=
    backgroundChoice_eq s
  cases on : s.snd.on with
  | false => simp [cuesInstalled, soundStopped, on]
  | true =>
    have on' : (s.setSnd (soundStopped s.snd)).snd.on = true := on
    rw [cuesInstalled, if_pos on', choice]
    simp [soundStopped]

/-! ### A LAMPS table (R180) -/

theorem getElem?_mapLamps (f : Nat → Lamp → Lamp) (l : List Lamp) (k n : Nat) :
    (mapLamps f k l)[n]? = l[n]?.map (f (k + n)) := by
  induction l generalizing k n with
  | nil => rfl
  | cons o rest ih =>
    cases n with
    | zero => rfl
    | succ n =>
      rw [mapLamps, List.getElem?_cons_succ, List.getElem?_cons_succ, ih]
      congr 2
      omega

/-- An output under a new record: its level shown and its soft timer, all else as it was. -/
theorem lampRerecorded_eq (r : LampRecord) (reg : BitVec 16) (o : Lamp) :
    lampRerecorded r reg o = { o with
      shown := match o.effect with
        | .steady => lampAim r o
        | .flicker => lampAim r o * (32 + reg.toNat % 32) / 64
        | .blink => if o.lit then lampAim r o else 0
        | .soft => o.soft
      softTimer := if o.effect = .soft then
          (if o.soft = lampAim r o then none else some (o.softTimer.getD (1000 * r.softStep)))
        else o.softTimer } := by
  cases effect : o.effect
  case steady => simp [lampRerecorded, lampShow, lampLevel, lampAim, effect]
  case flicker => cases on : o.on <;> simp [lampRerecorded, lampShow, lampLevel, lampAim, flickerLevel, effect, on]
  case blink => cases on : o.on <;> simp [lampRerecorded, lampShow, lampLevel, lampAim, effect, on]
  case soft =>
    simp only [lampRerecorded, softTimed, effect, if_true]
    split
    case isTrue reached => simp [lampShow, lampLevel, reached]
    case isFalse =>
      cases timer : o.softTimer <;> simp [lampShow, lampLevel, effect, timer, Nat.mul_comm]

theorem lampsInstalled_dark {s : State} (dark : s.lmp.power = .init ∨ s.lmp.power = .hold) : lampsInstalled s = s :=
  if_pos (by rcases dark with h | h <;> rw [h] <;> rfl)

/-- The power state and the flicker generator stay. -/
theorem lampsInstalled_rest (s : State) :
    (lampsInstalled s).lmp.power = s.lmp.power ∧ (lampsInstalled s).lmp.flicker = s.lmp.flicker := by
  simp only [lampsInstalled]
  split
  · exact ⟨rfl, rfl⟩
  · exact ⟨rfl, rfl⟩

theorem lampsInstalled_lit {s : State} (lit : s.lmp.power = .normal ∨ s.lmp.power = .coast) {n : Nat}
    (inside : n < s.lmp.outputs.length) :
    (lampsInstalled s).lmp.outputs.getD n lampReset =
      lampRerecorded (s.lampRecord n) s.lmp.flicker (s.lmp.outputs.getD n lampReset) := by
  have shows : lampsDark s.lmp.power = false := by rcases lit with h | h <;> rw [h] <;> rfl
  simp [lampsInstalled, shows, List.getD_eq_getElem?_getD, getElem?_mapLamps, inside]

end Sys2Proof.Laws
end

section
/-!
PROOFS. CFG_COMMIT by its tests, and what each table does at its owner once it is in force (R45, R51, R52).
-/
namespace Sys2Proof.Laws

open Sys2Proof.Machine

/-! ### The refusals (R45) -/

section
variable {s : State} {f : Frame} {rest : List Frame} {via : Via}

/-- A CFG_COMMIT is taken, carried out, and answered with the PRIMARY Address. -/
theorem exec_cfgCommit (handed : HandedOn s f rest via) (kind : frameKind f = 8) {r : State × Answer}
    (outcome : cfgCommit (frameTaken s f rest) = r) :
    exec .cfgCommit s = .next (fnuSettle (offerReply r.1 (answerFrame s.primaryAddress 8 r.2))) := by
  obtain ⟨⟨run, inbound⟩, via_⟩ := handed
  refine (settled_running run).trans ?_
  rw [dispatch_handed inbound (decide_eq_true kind) via_, handCommit, outcome, answered, primaryAddress_frameTaken]

end

section
variable {s : State}

theorem cfgCommit_busy (busy : s.tbs.writing ≠ none) : cfgCommit s = (s, .result .busy 0) :=
  if_pos (Option.isSome_iff_ne_none.mpr busy)

theorem cfgCommit_notOpen (idle : s.tbs.writing = none) (closed : s.tbs.openTable = none) :
    cfgCommit s = (s, .result .notOpen 0) := by
  simp [cfgCommit, idle, closed]

theorem cfgCommit_invalid {t : TableId} {k : Nat} (idle : s.tbs.writing = none) (opened : s.tbs.openTable = some t)
    (offends : commitOffence t (s.tbs.edit.take (tableSize t)) = some k) : cfgCommit s = (s, .result .invalid k) := by
  simp [cfgCommit, idle, opened, offends]

end

/-! ### The commit carried out -/

/-- TBS once a commit has been carried out, apart from its active copies. -/
def committedTbs (b : Tbs) (t : TableId) : Tbs :=
  { b with openTable := none, pointer := 0, defaulted := false, writing := some t }

/-- The part with a committed table in force, before its owner acts. -/
def inForce (s : State) (t : TableId) : State :=
  refiled (committedTbs s.tbs t) (markSet s.store t) (activePut s t (editContent s.tbs t))

/-- A commit is the owner's act on the new table, with TBS closed and the write begun. -/
theorem tableCommitted_eq (s : State) (t : TableId) :
    tableCommitted s t = refiled (committedTbs s.tbs t) (markSet s.store t)
      (ownerInstalls s (activePut s t (editContent s.tbs t)) t) := by
  have tbs : (ownerInstalls s (activePut s t (editContent s.tbs t)) t).tbs =
      { s.tbs with active := tablePut s.tbs.active t (editContent s.tbs t) } := by simp [activePut]
  have store : (ownerInstalls s (activePut s t (editContent s.tbs t)) t).store = s.store := by simp [activePut]
  rw [tableCommitted, tableInstalled, writeBegun, refiled, tbs, store]
  rfl

theorem tableCommitted_tbs (s : State) (t : TableId) :
    (tableCommitted s t).tbs =
      { committedTbs s.tbs t with active := tablePut s.tbs.active t (editContent s.tbs t) } := by
  simp [tableCommitted_eq, activePut]

theorem tableCommitted_store (s : State) (t : TableId) : (tableCommitted s t).store = markSet s.store t := by
  simp [tableCommitted_eq]

theorem inForce_eq (s : State) (t : TableId) :
    inForce s t = (s.setTbs (tableCommitted s t).tbs).setStore (tableCommitted s t).store := by
  rw [tableCommitted_tbs, tableCommitted_store]
  rfl

/-- The parts that a commit can reach, by the table (Table 3-3). -/
def commitReach (t : TableId) : List Part :=
  match t with
  | .settings => [.tbs, .store, .fnu, .trc, .mbr, .msq, .snd, .smk, .lmp, .ppm]
  | .address => [.tbs, .store, .dsp, .fnu, .trc, .mbr, .msq]
  | .speed => [.tbs, .store, .fnu, .trc, .mbr, .msq]
  | .map => [.tbs, .store, .fnu, .trc, .mbr, .msq, .snd, .smk, .lmp]
  | .cues => [.tbs, .store, .snd]
  | .lamps => [.tbs, .store, .lmp]

theorem tableCommitted_sameBut (s : State) (t : TableId) : SameBut (commitReach t) s (tableCommitted s t) := by
  rw [tableCommitted_eq]
  intro p hp
  cases t <;> cases p <;> simp [commitReach] at hp <;> simp [partSame, ownerInstalls, activePut]

/-! ### SETTINGS (R182, notes/assumptions/20) -/

theorem tableCommitted_settings (s : State) : tableCommitted s .settings = settingsInstalled (inForce s .settings) := by
  rw [tableCommitted_eq, inForce, refiled_settingsInstalled]
  rfl

/-! ### SPEED (R72) -/

theorem tableCommitted_speed (s : State) :
    let u := tableCommitted s .speed
    let a := activePut s .speed (editContent s.tbs .speed)
    TractionEvent (inForce s .speed) u ∧ u.trc.target = targetFor a s.trc.step ∧ u.trc.state = retargetedState a ∧
      u.trc = { s.trc with target := u.trc.target, state := u.trc.state,
                           drive := if s.trc.ramp = 0 then s.trc.stated else s.trc.drive,
                           bemfTimer := u.trc.bemfTimer, stallTimer := u.trc.stallTimer,
                           outstanding := u.trc.outstanding, published := u.trc.published } ∧
      (u.trc.state = s.trc.state → u.trc.bemfTimer = s.trc.bemfTimer ∧ u.trc.stallTimer = s.trc.stallTimer) := by
  intro u a
  obtain ⟨event, -⟩ := retarget_ends a
  have committed : u = refiled (committedTbs s.tbs .speed) (markSet s.store .speed) (retarget a) :=
    tableCommitted_eq s .speed
  rw [committed]
  exact ⟨tractionEvent_refiled _ _ event, retarget_trc a⟩

/-- The state that T gives, from T itself (R72). -/
theorem retargetedState_of_target {s : State} {target : Nat} (is : target = targetFor s s.trc.step) :
    retargetedState s = (match s.trc.state with
      | .idle => if 0 < target ∧ s.trc.armed = true then .running else .idle
      | .running => if s.trc.ramp = 0 ∧ target = 0 then .idle else .running
      | other => other) := by
  subst is
  rfl

/-! ### MAP (R67) -/

/-- The cues released and triggered by the changes between two maps, in index order. -/
theorem filterMap_mapChanges (f : Fnu) (old new : List MapEntry) :
    (mapChanges f old new).filterMap cueOf = (old.zip new).flatMap (fun x =>
      if (x.1.used = false ∧ x.2.used = false) ∨ x.1 = x.2 then []
      else
        (match x.1.action with
          | some (.cue c) => if entryActive f x.1 then [(c, false)] else []
          | _ => []) ++
        (match x.2.action with
          | some (.cue c) => if entryActive f x.2 then [(c, true)] else []
          | _ => [])) := by
  have part (e : MapEntry) (on : Bool) :
      (if entryActive f e = true then [(e, on)] else []).filterMap cueOf =
        match e.action with
        | some (.cue c) => if entryActive f e then [(c, on)] else []
        | _ => [] := by
    cases active : entryActive f e <;> rcases action : e.action with _ | (⟨n, d⟩ | c | _ | _ | _ | _) <;>
      simp [cueOf, action]
  rw [mapChanges, List.filterMap_flatMap]
  refine List.flatMap_congr fun x _ => ?_
  have same : sameEntry x.1 x.2 = true ↔ (x.1.used = false ∧ x.2.used = false) ∨ x.1 = x.2 := by simp [sameEntry]
  rw [changesOf]
  by_cases alike : sameEntry x.1 x.2 = true
  · rw [if_pos alike, if_pos (same.mp alike)]
    rfl
  · rw [if_neg alike, if_neg (fun h => alike (same.mpr h)), List.filterMap_append, part, part]

theorem tableCommitted_map {s : State} (safe : MapSafe s) :
    let u := tableCommitted s .map
    let entries := mapEntries (editContent s.tbs .map)
    u.fnu.activity = entries.map (entryActive s.fnu) ∧
      Deliveries (inForce s .map) u (outputsFor (entries.filter (entryActive s.fnu)))
        ((mapChanges s.fnu (mapEntries s.tbs.active.map) entries).filterMap cueOf) := by
  intro u entries
  obtain ⟨kept, delivered⟩ := safe
  have committed : u = refiled (committedTbs s.tbs .map) (markSet s.store .map)
      (mapInstalled (activePut s .map (editContent s.tbs .map)) s.tbs.active.map) := tableCommitted_eq s .map
  obtain ⟨activity, deliveries⟩ :=
    mapInstalled_deliveries (s := activePut s .map (editContent s.tbs .map)) kept delivered
  rw [committed]
  exact ⟨activity, deliveries_refiled _ _ deliveries⟩

/-! ### CUES and LAMPS (R164, R180) -/

theorem tableCommitted_cues (s : State) :
    (tableCommitted s .cues).snd = (cuesInstalled (inForce s .cues)).snd := by
  rw [tableCommitted_eq, cuesInstalled_snd]
  exact cuesInstalled_snd (activePut s .cues (editContent s.tbs .cues))

theorem tableCommitted_lamps (s : State) :
    (tableCommitted s .lamps).lmp = (lampsInstalled (inForce s .lamps)).lmp := by
  rw [tableCommitted_eq]
  have apart (e : Tbs) (m : PerTable Image) (u : State) : (lampsInstalled (refiled e m u)).lmp = (lampsInstalled u).lmp := by
    simp only [lampsInstalled, refiled_parts]
    split <;> rfl
  exact (apart _ _ _).symm

/-- Settles O22: each refusal by its test, and the accepted commit as the owner's act on the table in force. -/
theorem commitFollowsItsTests : Obligations.CommitFollowsItsTests := by
  unfold Obligations.CommitFollowsItsTests
  intro s f rest via handed kind s0
  have taken : s0 = s.setCli s0.cli := by
    simp only [s0, frameTaken]
    split <;> rfl
  have run : running s = true := handed.1.1
  refine ⟨fun busy => exec_cfgCommit handed kind (cfgCommit_busy (by simpa using busy)),
    fun idle closed => exec_cfgCommit handed kind (cfgCommit_notOpen (by simpa using idle) (by simpa using closed)),
    fun t idle opened => ?_⟩
  intro edited content
  have committed : editContent s.tbs t = content := by cases t <;> simp [content, edited, editContent, commitContent]
  refine ⟨fun k offends => exec_cfgCommit handed kind
    (cfgCommit_invalid (by simpa using idle) (by simpa using opened) (by simpa using offends)), fun sound => ?_⟩
  have acts : exec .cfgCommit s = .next (fnuSettle (offerReply (tableCommitted s0 t)
      (resultFrame s.primaryAddress 8 .accepted (sumBytes content % 65536)))) := by
    rw [← committed]
    exact exec_cfgCommit_accepted handed kind idle opened sound
  refine ⟨tableCommitted s0 t, acts, ?_⟩
  clear_value s0
  generalize s0.cli = c at taken
  subst taken
  clear acts
  refine ⟨?_, tableCommitted_store _ _, ?_, ?_⟩
  · rw [tableCommitted_tbs, ← committed]
    rfl
  · have reach := tableCommitted_sameBut (s.setCli c) t
    cases t <;> exact reach
  intro b volts was reads selected oldEntries entries bright
  have force : inForce (s.setCli c) t = b := inForce_eq _ _
  refine ⟨?_, ?_, ?_, ?_, ?_⟩
  · -- SETTINGS
    rintro rfl
    obtain ⟨same, supplies, alone⟩ := settingsInstalled_spec (b := b) run
    rw [tableCommitted_settings, force]
    refine ⟨same, fun x => ?_, alone⟩
    obtain ⟨voltage, present, lost, gained⟩ := supplies x
    exact ⟨voltage, present, lost, gained⟩
  · -- SPEED
    rintro rfl
    obtain ⟨event, target, state, apart⟩ := tableCommitted_speed (s.setCli c)
    rw [force] at event
    refine ⟨event, ?_, ?_, apart⟩
    · rw [target, ← committed]
      rfl
    · exact state.trans (retargetedState_of_target target)
  · -- MAP
    rintro rfl safe
    obtain ⟨activity, deliveries⟩ := tableCommitted_map (s := s.setCli c) safe
    rw [filterMap_mapChanges, force] at deliveries
    have new : entries = mapEntries (editContent (s.setCli c).tbs .map) := congrArg mapEntries committed.symm
    rw [new]
    exact ⟨activity, deliveries⟩
  · -- CUES
    rintro rfl
    rw [tableCommitted_cues, force]
    exact cuesInstalled_snd b
  · -- LAMPS
    rintro rfl size
    rw [tableCommitted_lamps, force]
    obtain ⟨power, flicker⟩ := lampsInstalled_rest b
    refine ⟨power, flicker, fun dark => ?_, fun lit n hn => ?_⟩
    · rw [lampsInstalled_dark (s := b) dark]
      rfl
    · have inside : n < b.lmp.outputs.length := hn.trans_eq size.symm
      rw [lampsInstalled_lit (s := b) lit inside, lampRerecorded_eq]
      rfl

end Sys2Proof.Laws
end

section
/-!
SUPPORT. An evaluation (R60, R61): its walk as deliveries one after another, that every output whose level changes is borne by an
entry whose activity changes, and so what an evaluation keeps and delivers.
-/
namespace Sys2Proof.Laws

open Sys2Proof.Machine

/-! ### The changes of activity along a walk -/

/-- The entries whose activity changes, each with its new activity. -/
def activityChanges (l : List (MapEntry × Bool × Bool)) : List (MapEntry × Bool) :=
  l.flatMap fun x => if x.2.1 = x.2.2 then [] else [(x.1, x.2.2)]

theorem walk_eq (new : Outputs) (l : List (MapEntry × Bool × Bool)) (s : State) :
    walk new l s = deliverAll new (activityChanges l) s := by
  induction l generalizing s with
  | nil => rfl
  | cons x rest ih =>
    obtain ⟨e, old, now⟩ := x
    rw [walk, ih, activityChanges, activityChanges, List.flatMap_cons, deliverAll_append]
    by_cases same : old = now
    · simp only [same, if_true]
      rfl
    · simp only [same, if_false]
      rfl

/-- The cues that such a walk triggers and releases, in index order. -/
theorem filterMap_activityChanges (l : List (MapEntry × Bool × Bool)) :
    (activityChanges l).filterMap cueOf = l.flatMap (fun x =>
      if x.2.1 = x.2.2 then []
      else
        match x.1.action with
        | some (.cue c) => [(c, x.2.2)]
        | _ => []) := by
  rw [activityChanges, List.filterMap_flatMap]
  refine List.flatMap_congr fun x _ => ?_
  split
  · rfl
  · rcases action : x.1.action with _ | (⟨n, d⟩ | c | _ | _ | _ | _) <;> simp [cueOf, action]

/-! ### The entries of a kept activity -/

/-- The entries that a list of kept activities makes active. -/
def keptActive (entries : List MapEntry) (activity : List Bool) : List MapEntry :=
  ((entries.zip activity).filter (fun x => x.2)).map (fun x => x.1)

theorem keptActive_cons (e : MapEntry) (entries : List MapEntry) (on : Bool) (activity : List Bool) :
    keptActive (e :: entries) (on :: activity) = (if on then [e] else []) ++ keptActive entries activity := by
  cases on <;> rfl

theorem keptActive_map (entries : List MapEntry) (p : MapEntry → Bool) :
    keptActive entries (entries.map p) = entries.filter p := by
  induction entries with
  | nil => rfl
  | cons e rest ih =>
    rw [List.map_cons, keptActive_cons, ih, List.filter_cons]
    split <;> rfl

/-- If no changed entry bears an output, the active entries that bear it are the same. -/
theorem filter_keptActive_of_unborne (bears : MapEntry → Bool) {entries : List MapEntry} {was now : List Bool}
    (size : was.length = entries.length) (size' : now.length = entries.length)
    (h : (activityChanges (entries.zip (was.zip now))).any (fun x => bears x.1) = false) :
    (keptActive entries was).filter bears = (keptActive entries now).filter bears := by
  induction entries generalizing was now with
  | nil => rfl
  | cons e rest ih =>
    obtain ⟨old, was, rfl⟩ := List.exists_cons_of_length_eq_add_one size
    obtain ⟨new, now, rfl⟩ := List.exists_cons_of_length_eq_add_one size'
    simp only [activityChanges, List.zip_cons_cons, List.flatMap_cons, List.any_append, Bool.or_eq_false_iff] at h
    obtain ⟨first, later⟩ := h
    have tail := ih (Nat.succ.inj size) (Nat.succ.inj size') later
    simp only [keptActive_cons, List.filter_append, tail]
    by_cases same : old = new
    · rw [same]
    · have unborne : bears e = false := by simpa [same] using first
      cases old <;> cases new <;> simp [unborne]

/-! ### The outputs that an evaluation changes -/

/-- If the entries that bear an output are the same wherever no event bears it, every output whose level changes is borne. -/
theorem borne_of_filter_eq {events : List (MapEntry × Bool)} {old new : List MapEntry}
    (same : ∀ bears : MapEntry → Bool, events.any (fun x => bears x.1) = false → old.filter bears = new.filter bears) :
    Borne events (outputsFor old) (outputsFor new) := by
  have borne {α : Type} (level : Outputs → α) {bears : MapEntry → Bool}
      (decided : ∀ active, level (outputsFor active) = level (outputsFor (active.filter bears)))
      (ne : level (outputsFor old) ≠ level (outputsFor new)) : events.any (fun x => bears x.1) = true := by
    by_contra unborne
    refine ne ?_
    rw [decided old, decided new, same bears (Bool.eq_false_of_not_eq_true unborne)]
  exact {
    lamps := fun n hn => borne (fun d => d.lamps.getD n none) fun active => by
      rw [outputsFor_lamp _ hn, outputsFor_lamp _ hn, findSome?_filter_isSome]
    smoke := borne Outputs.smoke fun active => actionActive_filter active _
    mute := borne Outputs.mute fun active => actionActive_filter active _
    shunt := borne Outputs.shunt fun active => actionActive_filter active _
    momentumOff := borne Outputs.momentumOff fun active => actionActive_filter active _ }

/-- An evaluation over kept activities that gave the levels last delivered (R60, R61). -/
theorem evaluate_deliveries {s : State}
    (size : s.fnu.activity.length = (mapEntries s.tbs.active.map).length)
    (delivered : s.fnu.delivered = outputsFor (keptActive (mapEntries s.tbs.active.map) s.fnu.activity)) :
    let entries := mapEntries s.tbs.active.map
    let now := entries.map (entryActive s.fnu)
    (evaluate s).fnu.activity = now ∧
      Deliveries s (evaluate s) (outputsFor (entries.filter (entryActive s.fnu)))
        ((activityChanges (entries.zip (s.fnu.activity.zip now))).filterMap cueOf) := by
  intro entries now
  have sizes (l : List MapEntry) : (outputsFor l).lamps.length = 8 := by simp [outputsFor]
  have borne : Borne (activityChanges (entries.zip (s.fnu.activity.zip now))) s.fnu.delivered
      (outputsFor (entries.filter (entryActive s.fnu))) := by
    rw [delivered, ← keptActive_map]
    exact borne_of_filter_eq fun bears => filter_keptActive_of_unborne bears size (List.length_map _)
  obtain ⟨same, rest⟩ := deliverAll_deliveries ((congrArg (fun d => d.lamps.length) delivered).trans (sizes _)) (sizes _) borne
  have eq : evaluate s = keepActivity (deliverAll (outputsFor (entries.filter (entryActive s.fnu)))
      (activityChanges (entries.zip (s.fnu.activity.zip now))) s) now := congrArg (keepActivity · now) (walk_eq _ _ _)
  rw [eq]
  refine ⟨rfl, fun p hp => ?_, rest⟩
  have before := same p hp
  cases p <;> first | exact before | simp at hp

/-! ### MapSafe after an evaluation and an installation -/

/-- Activity depends on the functions and FNU's copies alone (R60). -/
theorem entryActive_congr {f g : Fnu} (functions : g.functions = f.functions) (conditions : g.conditions = f.conditions)
    (drive : g.drive = f.drive) : entryActive g = entryActive f := by
  funext e
  simp only [entryActive, triggerOn, directionHolds, motionHolds, functions, conditions, drive]

theorem mapSafe_of_deliveries {s u : State} {cues : List (Nat × Bool)}
    (activity : u.fnu.activity = (mapEntries s.tbs.active.map).map (entryActive s.fnu))
    (deliveries : Deliveries s u (outputsFor ((mapEntries s.tbs.active.map).filter (entryActive s.fnu))) cues) :
    MapSafe u := by
  obtain ⟨same, delivered, functions, conditions, drive, -⟩ := deliveries
  have tbs : u.tbs = s.tbs := same .tbs (by decide)
  rw [MapSafe, activeEntries, tbs, entryActive_congr functions conditions drive]
  exact ⟨activity, delivered⟩

/-- An evaluation for functions and copies newly in place of those that the kept activity and the levels delivered stand for. -/
theorem mapSafe_evaluate {s : State} (h : MapSafe s) {f : Fnu} (activity : f.activity = s.fnu.activity)
    (delivered : f.delivered = s.fnu.delivered) : MapSafe (evaluate (s.setFnu f)) := by
  obtain ⟨kept, levels⟩ := h
  have was : (s.setFnu f).fnu.activity = (mapEntries s.tbs.active.map).map (entryActive s.fnu) := activity.trans kept
  obtain ⟨now, deliveries⟩ := evaluate_deliveries (s := s.setFnu f) (by rw [was]; simp)
    (by rw [was, setFnu_tbs, keptActive_map]; exact delivered.trans levels)
  exact mapSafe_of_deliveries now deliveries

/-- The installation of a map in place of one whose activity is kept. -/
theorem mapSafe_mapInstalled {s : State} {oldMap : List Byte}
    (kept : s.fnu.activity = (mapEntries oldMap).map (entryActive s.fnu))
    (delivered : s.fnu.delivered = outputsFor (activeEntries s.fnu (mapEntries oldMap))) :
    MapSafe (mapInstalled s oldMap) := by
  obtain ⟨activity, deliveries⟩ := mapInstalled_deliveries kept delivered
  exact mapSafe_of_deliveries activity deliveries

end Sys2Proof.Laws
end

section
/-!
SUPPORT. FNU's copies and their owners (R57, R58, R98): each owner's law, what a publication does to it, and the operations
that tell FNU of every change and deliver nothing.
-/
namespace Sys2Proof.Laws

open Sys2Proof.Machine

/-! ### FNU's copies -/

/-- What FNU copies from the owners. -/
def copies (f : Fnu) : Conditions × Dir := (f.conditions, f.drive)

theorem copies_copiesAfter_congr {f g : Fnu} (h : copies g = copies f) (p : Publication) :
    copies (copiesAfter g p) = copies (copiesAfter f p) := by
  obtain ⟨conditions, drive⟩ := Prod.mk.inj h
  cases p <;> simp only [copies, copiesAfter, conditions, drive]

theorem copies_foldl_congr {f g : Fnu} (h : copies g = copies f) (l : List Publication) :
    copies (l.foldl copiesAfter g) = copies (l.foldl copiesAfter f) := by
  induction l generalizing f g with
  | nil => exact h
  | cons p rest ih => exact ih (copies_copiesAfter_congr h p)

theorem copies_copiesToCome_congr {f g : Fnu} (waiting : g.waiting = f.waiting) (h : copies g = copies f) :
    copies (copiesToCome g) = copies (copiesToCome f) := by
  rw [copiesToCome, copiesToCome, waiting]
  exact copies_foldl_congr h _

/-- A publication comes after all that waits. -/
theorem copies_publish (s : State) (p : Publication) :
    copies (copiesToCome (publish s p).fnu) = copies (copiesAfter (copiesToCome s.fnu) p) := by
  have waits : copiesToCome (publish s p).fnu =
      (s.fnu.waiting ++ [p]).foldl copiesAfter { s.fnu with waiting := s.fnu.waiting ++ [p] } := rfl
  have start : copies { s.fnu with waiting := s.fnu.waiting ++ [p] } = copies s.fnu := rfl
  rw [waits, copies_foldl_congr start, List.foldl_append]
  rfl

/-- The publication that FNU takes first is among those that its copies are to come to. -/
theorem copies_take {f : Fnu} {p : Publication} {rest : List Publication} (h : f.waiting = p :: rest) :
    copies (copiesToCome (copiesAfter { f with waiting := rest } p)) = copies (copiesToCome f) := by
  have waits : (copiesAfter { f with waiting := rest } p).waiting = rest := by cases p <;> rfl
  have taken : copies (copiesAfter { f with waiting := rest } p) = copies (copiesAfter f p) :=
    copies_copiesAfter_congr (f := f) (g := { f with waiting := rest }) rfl p
  rw [copiesToCome, copiesToCome, waits, h, List.foldl_cons]
  exact copies_foldl_congr taken rest

/-! ### The owners -/

/-- The owners of what FNU copies (Table 4-1). -/
inductive Owner where
  | traction
  | signal
  | power
  | smoke

/-- The owner that makes a publication. -/
def publisher (p : Publication) : Owner :=
  match p with
  | .traction _ _ => .traction
  | .signalLost _ => .signal
  | .coasting _ => .power
  | .smokeReady _ => .smoke

/-- FNU's copies of the five conditions of TRC. -/
def tractionCopies (c : Conditions) : TractionConditions :=
  { moving := c.moving, accelerating := c.accelerating, decelerating := c.decelerating, loaded := c.loaded,
    stalled := c.stalled }

/-- The copies that FNU is to come to are an owner's. -/
def CopiesOf (o : Owner) (c : Conditions × Dir) (s : State) : Prop :=
  match o with
  | .traction => tractionCopies c.1 = s.trc.published ∧ c.2 = s.trc.drive
  | .signal => c.1.signalLost = s.dsp.signalLost
  | .power => c.1.coasting = decide (s.ppm.power = .coast)
  | .smoke => c.1.smokeReady = decide (s.smk.state = .ready)

/-- An owner's law: FNU's copies come to what it holds, and TRC has published the conditions that it holds. -/
def Copied (o : Owner) (s : State) : Prop :=
  CopiesOf o (copies (copiesToCome s.fnu)) s ∧
    match o with
    | .traction => s.trc.published = tractionConditions s.trc
    | _ => True

theorem copiesSafe_iff (s : State) : CopiesSafe s ↔ ∀ o, Copied o s := by
  constructor
  · rintro ⟨published, drive, conditions⟩ o
    cases o <;> simp only [Copied, CopiesOf, copies, tractionCopies, conditions, and_true]
    exact ⟨⟨trivial, drive⟩, published⟩
  · intro h
    obtain ⟨⟨conditions, drive⟩, published⟩ := h .traction
    obtain ⟨signal, -⟩ := h .signal
    obtain ⟨power, -⟩ := h .power
    obtain ⟨smoke, -⟩ := h .smoke
    refine ⟨published, drive, ?_⟩
    rw [← conditions, ← signal, ← power, ← smoke]
    rfl

/-- What of the part an owner's law speaks of, beside FNU. -/
def SameOwner (o : Owner) (s t : State) : Prop :=
  match o with
  | .traction =>
    t.trc.published = s.trc.published ∧ t.trc.drive = s.trc.drive ∧ tractionConditions t.trc = tractionConditions s.trc
  | .signal => t.dsp.signalLost = s.dsp.signalLost
  | .power => decide (t.ppm.power = .coast) = decide (s.ppm.power = .coast)
  | .smoke => decide (t.smk.state = .ready) = decide (s.smk.state = .ready)

theorem sameOwner_of_blocks {o : Owner} {s t : State} (dsp : t.dsp = s.dsp) (trc : t.trc = s.trc) (smk : t.smk = s.smk)
    (ppm : t.ppm = s.ppm) : SameOwner o s t := by
  cases o <;> simp only [SameOwner, dsp, trc, smk, ppm, and_self]

section
variable {o : Owner} {s t : State}

theorem CopiesOf.congr {c : Conditions × Dir} (h : CopiesOf o c s) (owner : SameOwner o s t) : CopiesOf o c t := by
  cases o
  case traction =>
    obtain ⟨published, drive, -⟩ := owner
    rw [CopiesOf, published, drive]
    exact h
  all_goals exact Eq.trans h (Eq.symm owner)

theorem Copied.congr (h : Copied o s) (fnu : copies (copiesToCome t.fnu) = copies (copiesToCome s.fnu))
    (owner : SameOwner o s t) : Copied o t := by
  obtain ⟨held, published⟩ := h
  refine ⟨?_, ?_⟩
  · rw [fnu]
    exact held.congr owner
  · cases o <;> try trivial
    obtain ⟨published', -, conditions⟩ := owner
    exact published'.trans (published.trans conditions.symm)

/-- A publication leaves the laws of the other owners. -/
theorem Copied.publish_other (h : Copied o s) {p : Publication} (other : publisher p ≠ o) : Copied o (publish s p) := by
  obtain ⟨held, published⟩ := h
  refine ⟨?_, ?_⟩
  · rw [copies_publish]
    cases p <;> cases o <;> first | exact held | exact absurd rfl other
  · cases o <;> exact published

/-- A publication brings FNU to what its owner holds, if that is what it carries. -/
theorem copied_publish_own {p : Publication}
    (carries : CopiesOf (publisher p) (copies (copiesAfter (copiesToCome s.fnu) p)) s)
    (published : publisher p = .traction → s.trc.published = tractionConditions s.trc) :
    Copied (publisher p) (publish s p) := by
  refine ⟨?_, ?_⟩
  · rw [copies_publish]
    cases p <;> exact carries
  · cases p <;> first | exact published rfl | trivial

end

/-! ### Operations that deliver nothing and tell FNU of every change -/

/-- FNU but for what waits for it. -/
def atRest (f : Fnu) : Fnu := { f with waiting := [] }

/-- What the targets of FNU hold of its outputs, the lamps apart. -/
def heldLevels (s : State) : Bool × Bool × Bool × Bool := (s.smk.enable, s.snd.mute, s.trc.shunt, s.trc.momentumOff)

/-- From `s` to `t` nothing is delivered, and FNU is told of every change that concerns it. -/
structure Reports (s t : State) : Prop where
  fnu : atRest t.fnu = atRest s.fnu
  levels : heldLevels t = heldLevels s
  map : t.tbs.active.map = s.tbs.active.map
  copied : ∀ o, Copied o s → Copied o t

theorem Reports.refl (s : State) : Reports s s := ⟨rfl, rfl, rfl, fun _ h => h⟩

theorem Reports.trans {s t u : State} (h : Reports s t) (h' : Reports t u) : Reports s u :=
  ⟨h'.fnu.trans h.fnu, h'.levels.trans h.levels, h'.map.trans h.map, fun o ho => h'.copied o (h.copied o ho)⟩

/-- All of TRC that FNU's laws speak of. -/
def tractionFace (t : Trc) : TractionConditions × TractionConditions × Dir × Bool × Bool :=
  (t.published, tractionConditions t, t.drive, t.shunt, t.momentumOff)

/-- All of the part that they speak of. -/
abbrev face (s : State) :=
  (s.fnu, s.tbs.active.map, tractionFace s.trc, s.snd.mute, s.smk.enable, s.smk.state, s.dsp.signalLost, s.ppm.power)

theorem Reports.of_face {s t : State} (same : face t = face s) : Reports s t := by
  simp only [face, tractionFace, Prod.mk.injEq] at same
  obtain ⟨fnu, map, ⟨published, conditions, drive, shunt, momentum⟩, mute, enable, smoke, signal, power⟩ := same
  refine ⟨by rw [fnu], by simp only [heldLevels, enable, mute, shunt, momentum], map, fun o h => h.congr (by rw [fnu]) ?_⟩
  cases o <;> simp only [SameOwner, published, conditions, drive, signal, power, smoke, and_self]

end Sys2Proof.Laws
end

section
/-!
SUPPORT. The operations that deliver nothing, one lemma an operation: FNU is told of every change that concerns it (R57, R58, R98).
-/
namespace Sys2Proof.Laws

open Sys2Proof.Machine

/-! ### The end of an event at TRC (R98) -/

/-- Up to its end an event at TRC has reached TRC alone, and neither published nor taken a delivery. -/
structure AtTraction (s u : State) : Prop where
  alone : u = s.setTrc u.trc
  published : u.trc.published = s.trc.published
  shunt : u.trc.shunt = s.trc.shunt
  momentumOff : u.trc.momentumOff = s.trc.momentumOff

theorem AtTraction.refl (s : State) : AtTraction s s := ⟨rfl, rfl, rfl, rfl⟩

theorem AtTraction.set {s u : State} (h : AtTraction s u) {t : Trc} (published : t.published = u.trc.published)
    (shunt : t.shunt = u.trc.shunt) (momentumOff : t.momentumOff = u.trc.momentumOff) : AtTraction s (u.setTrc t) :=
  ⟨by rw [h.alone]; rfl, published.trans h.published, shunt.trans h.shunt, momentumOff.trans h.momentumOff⟩

theorem AtTraction.workOutLoad {s u : State} (h : AtTraction s u) : AtTraction s (workOutLoad u) := h.set rfl rfl rfl

/-- The end of an event tests timers, and lets the drive direction follow; of TRC it leaves all else. -/
theorem endedTrc_flags (before : Trc) (tick work : Bool) (s : State) :
    (endedTrc before tick work s).shunt = s.trc.shunt ∧ (endedTrc before tick work s).momentumOff = s.trc.momentumOff := by
  simp only [endedTrc, followDirection_eq, testBemfTimer_eq, testStall_eq]
  (repeat' split) <;> simp

/-- TRC publishes what its event has changed, and MBR's acts on its demand are no concern of FNU. -/
theorem reports_tractionEnd {s u : State} (h : AtTraction s u) (tick work atOnce : Bool) :
    Reports s (tractionEnd s.trc tick work atOnce u) := by
  obtain ⟨trc, fnu, -, -, same⟩ := tractionEnd_spec s.trc tick work atOnce u
  obtain ⟨alone, published, shunt, momentum⟩ := h
  obtain ⟨shunt', momentum'⟩ := endedTrc_flags s.trc tick work u
  generalize tractionEnd s.trc tick work atOnce u = t at *
  generalize endedTrc s.trc tick work u = w at *
  have at_ : u.fnu = s.fnu ∧ u.dsp = s.dsp ∧ u.tbs = s.tbs ∧ u.snd = s.snd ∧ u.smk = s.smk ∧ u.ppm = s.ppm := by
    rw [alone]
    simp
  obtain ⟨fnuSame, dspSame, tbsSame, sndSame, smkSame, ppmSame⟩ := at_
  have dsp : t.dsp = s.dsp := (same .dsp (by decide)).trans dspSame
  have tbs : t.tbs = s.tbs := (same .tbs (by decide)).trans tbsSame
  have snd : t.snd = s.snd := (same .snd (by decide)).trans sndSame
  have smk : t.smk = s.smk := (same .smk (by decide)).trans smkSame
  have ppm : t.ppm = s.ppm := (same .ppm (by decide)).trans ppmSame
  rw [fnuSame, published] at fnu
  refine ⟨by rw [fnu]; rfl, ?_, by rw [tbs], fun o law => ?_⟩
  · rw [heldLevels, smk, snd, trc]
    simp only [shunt', momentum', shunt, momentum]
    rfl
  have held : t.trc.published = tractionConditions w ∧ t.trc.drive = w.drive ∧ tractionConditions t.trc = tractionConditions w := by
    rw [trc]
    exact ⟨rfl, rfl, rfl⟩
  obtain ⟨heldPublished, heldDrive, heldConditions⟩ := held
  split at fnu
  case isTrue changed =>
    let v := s.setTrc t.trc
    have told : t.fnu = (publish v (.traction t.trc.published t.trc.drive)).fnu := by
      rw [fnu, heldPublished, heldDrive]
      rfl
    have toCome : copies (copiesToCome t.fnu) =
        copies (copiesToCome (publish v (.traction t.trc.published t.trc.drive)).fnu) := by rw [told]
    cases o
    case traction =>
      have own : Copied .traction (publish v (.traction t.trc.published t.trc.drive)) :=
        copied_publish_own (p := .traction t.trc.published t.trc.drive) ⟨rfl, rfl⟩
          fun _ => heldPublished.trans heldConditions.symm
      exact own.congr toCome ⟨rfl, rfl, rfl⟩
    case signal => exact (law.publish_other (s := v) (by simp [publisher])).congr toCome (by rw [SameOwner, dsp]; rfl)
    case power => exact (law.publish_other (s := v) (by simp [publisher])).congr toCome (by rw [SameOwner, ppm]; rfl)
    case smoke => exact (law.publish_other (s := v) (by simp [publisher])).congr toCome (by rw [SameOwner, smk]; rfl)
  case isFalse unchanged =>
    simp only [not_or, Decidable.not_not] at unchanged
    obtain ⟨conditions, drive⟩ := unchanged
    refine law.congr (by rw [fnu, List.append_nil]) ?_
    cases o
    case traction =>
      obtain ⟨-, was⟩ := law
      exact ⟨heldPublished.trans conditions, heldDrive.trans drive, (heldConditions.trans conditions).trans was⟩
    case signal => rw [SameOwner, dsp]
    case power => rw [SameOwner, ppm]
    case smoke => rw [SameOwner, smk]

theorem reports_event {s : State} {t : Trc} {tick work atOnce : Bool} (published : t.published = s.trc.published)
    (shunt : t.shunt = s.trc.shunt) (momentumOff : t.momentumOff = s.trc.momentumOff) :
    Reports s (tractionEnd s.trc tick work atOnce (s.setTrc t)) :=
  reports_tractionEnd ((AtTraction.refl s).set published shunt momentumOff) tick work atOnce

/-! ### The commands and notices to TRC (R71 to R97) -/

section
variable (s : State)

theorem idleOrRunning_flags (t : Trc) : (idleOrRunning t).published = t.published ∧ (idleOrRunning t).shunt = t.shunt ∧
    (idleOrRunning t).momentumOff = t.momentumOff := by
  simp only [idleOrRunning]
  (repeat' split) <;> simp

theorem reports_retarget : Reports s (retarget s) := by
  obtain ⟨published, shunt, momentumOff⟩ := idleOrRunning_flags { s.trc with target := targetFor s s.trc.step }
  rw [retarget_eq]
  exact reports_event published shunt momentumOff

theorem reports_driveArmed (step : Nat) (d : Dir) : Reports s (driveArmed s step d) :=
  reports_event rfl rfl rfl

theorem reports_rearm (d : Dir) : Reports s (rearm s d) := by
  simp only [rearm]
  refine reports_tractionEnd ?_ _ _ _
  split <;> obtain ⟨published, shunt, momentumOff⟩ := idleOrRunning_flags _ <;>
    exact (AtTraction.refl s).set (published.trans rfl) (shunt.trans rfl) (momentumOff.trans rfl)

theorem reports_driveCommand (step : Nat) (d : Dir) : Reports s (driveCommand s step d) := by
  simp only [driveCommand]
  split
  · exact reports_driveArmed s step d
  · split
    · exact reports_rearm s d
    · exact Reports.refl s

theorem reports_emergencyHalt : Reports s (emergencyHalt s) := by
  simp only [emergencyHalt]
  split <;> first
    | exact reports_event rfl rfl rfl
    | exact Reports.refl s

theorem reports_statedInverted : Reports s (statedInverted s) := by
  simp only [statedInverted]
  split
  · exact reports_driveArmed s _ _
  · exact reports_event rfl rfl rfl

theorem failsafeEntered_flags (t : Trc) : (failsafeEntered t).published = t.published ∧
    (failsafeEntered t).shunt = t.shunt ∧ (failsafeEntered t).momentumOff = t.momentumOff := by
  simp only [failsafeEntered]
  split <;> exact ⟨rfl, rfl, rfl⟩

theorem reports_lossNotice : Reports s (lossNotice s) := by
  obtain ⟨published, shunt, momentumOff⟩ := failsafeEntered_flags (disarmed s.trc)
  simp only [lossNotice]
  split <;> first
    | exact reports_event published shunt momentumOff
    | exact reports_event rfl rfl rfl
    | exact Reports.refl s

theorem reports_tripNotice : Reports s (tripNotice s) := by
  simp only [tripNotice]
  split
  · exact reports_event rfl rfl rfl
  · exact Reports.refl s

theorem retryEntered_flags (t : Trc) : (retryEntered t).published = t.published ∧
    (retryEntered t).shunt = t.shunt ∧ (retryEntered t).momentumOff = t.momentumOff := by
  simp only [retryEntered]
  split
  · exact failsafeEntered_flags t
  · split
    · exact ⟨rfl, rfl, rfl⟩
    · exact idleOrRunning_flags _

theorem reports_retryNotice : Reports s (retryNotice s) := by
  obtain ⟨published, shunt, momentumOff⟩ := retryEntered_flags s.trc
  simp only [retryNotice]
  split
  · exact reports_event published shunt momentumOff
  · exact Reports.refl s

theorem reports_lockoutNotice : Reports s (lockoutNotice s) := by
  simp only [lockoutNotice]
  split <;> exact reports_event rfl rfl rfl

theorem reports_stallExpiry : Reports s (stallExpiry s) := by
  simp only [stallExpiry]
  split
  · exact reports_event rfl rfl rfl
  · exact Reports.refl s

theorem reports_tractionPower (p : PowerState) : Reports s (tractionPower s p) := by
  cases p <;> simp only [tractionPower]
  case coast => exact Reports.refl s
  case normal =>
    split
    · exact reports_event rfl rfl rfl
    · exact Reports.refl s
  all_goals exact reports_event rfl rfl rfl

theorem reports_tractionCap (dcap : Nat) : Reports s (tractionCap s dcap) := by
  have capped : AtTraction s (s.setTrc { s.trc with dcap := dcap }) := (AtTraction.refl s).set rfl rfl rfl
  simp only [tractionCap]
  refine reports_tractionEnd ?_ _ _ _
  split
  · exact AtTraction.workOutLoad (capped.set rfl rfl rfl)
  · exact capped

theorem tickDuty_flags : (tickDuty s).published = s.trc.published ∧ (tickDuty s).shunt = s.trc.shunt ∧
    (tickDuty s).momentumOff = s.trc.momentumOff := by
  simp only [tickDuty]
  (repeat' split) <;> exact ⟨rfl, rfl, rfl⟩

theorem tickState_flags (t : Trc) : (tickState t).published = t.published ∧ (tickState t).shunt = t.shunt ∧
    (tickState t).momentumOff = t.momentumOff := by
  simp only [tickState]
  (repeat' split) <;> exact ⟨rfl, rfl, rfl⟩

theorem reports_rampTick : Reports s (rampTick s) := by
  let moved := s.setTrc { s.trc with ramp := rampNext s }
  have driven : AtTraction s (workOutLoad (moved.setTrc (tickDuty moved))) := by
    obtain ⟨published, shunt, momentumOff⟩ := tickDuty_flags moved
    exact AtTraction.workOutLoad (AtTraction.set ((AtTraction.refl s).set rfl rfl rfl) published shunt momentumOff)
  have landed {u : State} (h : AtTraction s u) :
      AtTraction s (if u.trc.ramp = 0 && 0 < s.trc.ramp then u.setTrc (rampStopped u.trc) else u) := by
    split
    · exact h.set rfl rfl rfl
    · exact h
  have ends {u : State} (h : AtTraction s u) :
      Reports s (tractionEnd s.trc true false false (u.setTrc (tickState u.trc))) := by
    obtain ⟨published, shunt, momentumOff⟩ := tickState_flags u.trc
    exact reports_tractionEnd (h.set published shunt momentumOff) _ _ _
  rw [rampTick]
  split
  · exact ends (landed driven)
  · exact Reports.refl s

theorem regulated_flags (raw : Nat) : (regulated s raw).published = s.trc.published ∧
    (regulated s raw).shunt = s.trc.shunt ∧ (regulated s raw).momentumOff = s.trc.momentumOff := by
  simp only [regulated]
  split <;> exact ⟨rfl, rfl, rfl⟩

theorem reports_bemfResult (raw : Nat) : Reports s (bemfResult s raw) := by
  let answered := s.setTrc { s.trc with outstanding := false }
  have atAnswered : AtTraction s answered := (AtTraction.refl s).set rfl rfl rfl
  simp only [bemfResult]
  split
  · obtain ⟨published, shunt, momentumOff⟩ := regulated_flags answered raw
    exact reports_tractionEnd (atAnswered.set published shunt momentumOff).workOutLoad _ _ _
  · split <;> exact Reports.of_face rfl

end

end Sys2Proof.Laws
end

section
/-!
SUPPORT. Smoke, trips, the command loss and the power path, one lemma an operation: FNU is told of every change that concerns it
(R57, R58).
-/
namespace Sys2Proof.Laws

open Sys2Proof.Machine

/-! ### The blocks that tell FNU nothing -/

section
variable (s : State)

@[simp] theorem abandonGap_tractionFace : tractionFace (abandonGap s).trc = tractionFace s.trc := by
  simp only [abandonGap]
  split <;> rfl

@[simp] theorem engineWork_mute : (engineWork s).snd.mute = s.snd.mute := by
  simp only [engineWork]
  (repeat' split) <;> rfl

@[simp] theorem soundPower_mute (p : PowerState) : (soundPower s p).snd.mute = s.snd.mute := by simp [soundPower]

@[simp] theorem setSupply_power (x : Supply) (v : SupplyState) : (setSupply s x v).ppm.power = s.ppm.power := by
  cases x <;> rfl

theorem reports_setSupply (x : Supply) (v : SupplyState) : Reports s (setSupply s x v) := Reports.of_face (by simp)

theorem reports_lockoutOpens : Reports s (lockoutOpens s) := Reports.of_face (by simp)

theorem reports_bridgeTripped : Reports s (bridgeTripped s) := Reports.of_face (by simp [bridgeTripped])

theorem reports_bridgeStart : Reports s (bridgeStart s) := Reports.of_face (by simp)

end

/-! ### The smoke controller (R167 to R173) -/

section
variable {s : State}

/-- The end of an event at SMK tells FNU whether the unit is READY, if that has changed. -/
theorem copied_smokeEnd {o : Owner} {u : State} (law : Copied o s)
    (apart : u.fnu = s.fnu ∧ u.trc = s.trc ∧ u.dsp = s.dsp ∧ u.ppm = s.ppm) : Copied o (smokeEnd s.smk.state u) := by
  obtain ⟨fnu, trc, dsp, ppm⟩ := apart
  have others (ne : o ≠ .smoke) : Copied o u := by
    refine law.congr (by rw [fnu]) ?_
    cases o <;> first | exact absurd rfl ne | simp only [SameOwner, trc, dsp, ppm, and_self]
  simp only [smokeEnd]
  split
  case isTrue =>
    cases o
    case smoke => exact copied_publish_own (p := .smokeReady _) rfl nofun
    all_goals exact (others nofun).publish_other nofun
  case isFalse unchanged =>
    cases o
    case smoke => exact law.congr (by rw [fnu]) (not_not.mp unchanged)
    all_goals exact others nofun

theorem atRest_smokeEnd (before : SmokeState) (u : State) : atRest (smokeEnd before u).fnu = atRest u.fnu := by
  simp only [smokeEnd]
  split <;> rfl

theorem reports_smokeEnd {k : Smk} (enable : k.enable = s.smk.enable) :
    Reports s (smokeEnd s.smk.state (s.setSmk k)) where
  fnu := atRest_smokeEnd _ _
  levels := by simp [heldLevels, enable]
  map := by simp
  copied _ law := copied_smokeEnd law ⟨rfl, rfl, rfl, rfl⟩

variable (s)

theorem smokeTaken_enable (tm : Nat) : (smokeTaken s tm).enable = s.smk.enable := by
  simp only [smokeTaken, smokeRegulated]
  (repeat' split) <;> rfl

theorem reports_smokeResult (tm : Nat) : Reports s (smokeResult s tm) := by
  simp only [smokeResult]
  split <;> first
    | exact reports_smokeEnd (smokeTaken_enable s tm)
    | exact Reports.refl s

theorem reports_smokeCap (hmax : Nat) : Reports s (smokeCap s hmax) := by
  simp only [smokeCap]
  refine reports_smokeEnd ?_
  (repeat' split) <;> rfl

theorem reports_smokePower (p : PowerState) : Reports s (smokePower s p) := by
  simp only [smokePower]
  refine reports_smokeEnd ?_
  (repeat' split) <;> rfl

end

/-! ### Trips and the completion of a conversion (R109 to R113, R119) -/

section
variable (s : State)

theorem reports_judgeOverload : Reports s (judgeOverload s) := by
  have counted (m : Mbr) : Reports s (s.setMbr m) := Reports.of_face rfl
  simp only [judgeOverload]
  split
  · exact (counted _).trans ((reports_lockoutOpens _).trans (reports_lockoutNotice _))
  · split <;> exact Reports.of_face rfl

theorem reports_judgeShort : Reports s (judgeShort s) := by
  have flagged (m : Mbr) : Reports s (s.setMbr m) := Reports.of_face rfl
  exact (flagged _).trans ((reports_lockoutOpens _).trans (reports_lockoutNotice _))

theorem reports_judgeTrip (code : Nat) : Reports s (judgeTrip s code) := by
  have heard : Reports s (s.setMbr { s.mbr with awaited := false }) := Reports.of_face rfl
  simp only [judgeTrip]
  split
  · exact heard.trans (reports_judgeShort _)
  · exact heard.trans (reports_judgeOverload _)

theorem reports_tripMeasure : Reports s (tripMeasure s) := by
  have heard : Reports s (s.setMbr { s.mbr with awaited := false }) := Reports.of_face rfl
  simp only [tripMeasure]
  split
  · exact Reports.of_face (by simp)
  · exact heard.trans (reports_judgeOverload _)

theorem reports_overcurrent (milliamps : Nat) : Reports s (overcurrent s milliamps) := by
  simp only [overcurrent]
  split
  · exact (reports_bridgeTripped s).trans ((reports_tripNotice _).trans (reports_tripMeasure _))
  · exact Reports.refl s

theorem reports_retryExpiry : Reports s (retryExpiry s) := by
  have stopped : Reports s (s.setMbr { s.mbr with retryTimer := none }) := Reports.of_face rfl
  simp only [retryExpiry]
  split
  · exact stopped.trans ((reports_bridgeStart _).trans (reports_retryNotice _))
  · exact Reports.refl s

end

/-! ### The command loss (R29) -/

section
variable (s : State)

/-- A change of SIGNAL_LOST and its publication. -/
theorem reports_signal (lost : Bool) : Reports s (publish (s.setDsp { s.dsp with signalLost := lost }) (.signalLost lost)) where
  fnu := rfl
  levels := rfl
  map := rfl
  copied o law := by
    let u := s.setDsp { s.dsp with signalLost := lost }
    cases o
    case signal => exact copied_publish_own (p := .signalLost lost) rfl nofun
    case traction => exact (law.congr (t := u) rfl ⟨rfl, rfl, rfl⟩).publish_other nofun
    case power => exact (law.congr (t := u) rfl rfl).publish_other nofun
    case smoke => exact (law.congr (t := u) rfl rfl).publish_other nofun

theorem reports_signalSet : Reports s (signalSet s) := by
  simp only [signalSet]
  split
  · exact Reports.refl s
  · exact reports_signal s true

theorem reports_lossRestart : Reports s (lossRestart s) := Reports.of_face rfl

theorem reports_lossExpiry : Reports s (lossExpiry s) := by
  have stopped : Reports s (s.setDsp { s.dsp with lossTimer := none }) := Reports.of_face rfl
  have told := stopped.trans (reports_signalSet _)
  simp only [lossExpiry]
  split
  · split
    · exact told.trans (reports_lossNotice _)
    · exact told
  · exact Reports.refl s

end

/-! ### Caps and power states (R185, R186, R189) -/

section
variable (s : State)

theorem reports_publishDcap : Reports s (publishDcap s) := by
  have kept : Reports s (s.setPpm { s.ppm with dcap := dcapNow s }) := Reports.of_face rfl
  simp only [publishDcap]
  split
  · exact Reports.refl s
  · exact kept.trans (reports_tractionCap _ _)

theorem reports_publishHmax : Reports s (publishHmax s) := by
  have kept : Reports s (s.setPpm { s.ppm with hmax := hmaxNow s }) := Reports.of_face rfl
  simp only [publishHmax]
  split
  · exact Reports.refl s
  · exact kept.trans (reports_smokeCap _ _)

theorem reports_publishSoundCap : Reports s (publishSoundCap s) := by
  simp only [publishSoundCap]
  split
  · exact Reports.refl s
  · exact Reports.of_face rfl

theorem reports_powerEnd : Reports s (powerEnd s) :=
  (reports_publishDcap s).trans ((reports_publishHmax _).trans (reports_publishSoundCap _))

theorem reports_announce (p : PowerState) : Reports s (announce s p) := by
  have sound (u : State) : Reports u (soundPower u p) := Reports.of_face (by simp)
  have lamps (u : State) : Reports u (lampsPower u p) := Reports.of_face (by simp)
  exact (reports_tractionPower s p).trans ((reports_smokePower _ p).trans ((sound _).trans (lamps _)))

theorem reports_setPpm {p : Ppm} (coast : decide (p.power = .coast) = decide (s.ppm.power = .coast)) :
    Reports s (s.setPpm p) where
  fnu := rfl
  levels := rfl
  map := rfl
  copied o law := by
    refine law.congr rfl ?_
    cases o <;> first | exact coast | exact ⟨rfl, rfl, rfl⟩ | rfl

/-- A change of the power state, told to the four blocks and then published (R57, R185). -/
theorem reports_powerState {p : Ppm} {on : Bool} (state : on = decide (p.power = .coast)) {u : State}
    (told : Reports (s.setPpm p) u) (power : u.ppm.power = p.power) : Reports s (publish u (.coasting on)) where
  fnu := told.fnu
  levels := told.levels
  map := told.map
  copied o law := by
    cases o
    case power =>
      have carried : on = decide (u.ppm.power = .coast) := by rw [power, state]
      exact copied_publish_own (p := .coasting on) carried nofun
    case traction => exact (told.copied _ (law.congr rfl ⟨rfl, rfl, rfl⟩)).publish_other nofun
    case signal => exact (told.copied _ (law.congr rfl rfl)).publish_other nofun
    case smoke => exact (told.copied _ (law.congr rfl rfl)).publish_other nofun

theorem reports_enterNormal : Reports s (enterNormal s) := by
  simp only [enterNormal]
  split
  case isTrue => exact reports_powerState s rfl (reports_announce _ .normal) (by simp)
  case isFalse notCoast => exact (reports_setPpm s (by simp [notCoast])).trans (reports_announce _ .normal)

theorem reports_enterCoast : Reports s (enterCoast s) := by
  have requested (u : State) : Reports u (bufferRequest u) := Reports.of_face rfl
  exact reports_powerState s rfl ((requested _).trans (reports_announce _ .coast)) (by simp)

theorem reports_enterHold : Reports s (enterHold s) :=
  reports_powerState s rfl (reports_announce _ .hold) (by simp)

/-! ### Sources (R182 to R184) -/

theorem reports_supplyActive (x : Supply) : Reports s (supplyActive s x) := by
  have drawn (a : Active) : Reports s (s.setPpm { s.ppm with active := a, overTimer := none, underTimer := none }) :=
    Reports.of_face rfl
  simp only [supplyActive]
  split
  · exact drawn _
  · exact (drawn _).trans (reports_enterNormal _)

theorem reports_bufferActive : Reports s (bufferActive s) := by
  have drawn (a : Active) : Reports s (s.setPpm { s.ppm with active := a, overTimer := none, underTimer := none }) :=
    Reports.of_face rfl
  simp only [bufferActive]
  split
  · exact (drawn _).trans (reports_enterCoast _)
  · exact drawn _

theorem reports_supplySelect (x : Supply) : Reports s (supplySelect s x) := by
  simp only [supplySelect]
  (repeat' split) <;> first
    | exact reports_supplyActive s x
    | exact Reports.refl s

theorem reports_supplyQualified (x : Supply) : Reports s (supplyQualified s x) :=
  (reports_setSupply s x _).trans (reports_supplySelect _ x)

theorem reports_startQualifying (x : Supply) : Reports s (startQualifying s x) := by
  simp only [startQualifying]
  split
  · exact reports_setSupply s x _
  · exact Reports.refl s

theorem reports_fastReturnRaise (x : Supply) : Reports s (fastReturnRaise s x) := by
  have raised (r : Inject) : Reports s (injectRaised s r) := Reports.of_face (by simp)
  simp only [fastReturnRaise]
  split
  · exact (raised _).trans (reports_setSupply _ x _)
  · exact Reports.refl s

theorem reports_activeLost (x : Supply) : Reports s (activeLost s x) := by
  simp only [activeLost]
  split
  · exact reports_supplyActive s _
  · exact reports_bufferActive s

theorem reports_presenceLoss (x : Supply) : Reports s (presenceLoss s x) := by
  have absent : Reports s (supplyAbsent s x) := reports_setSupply s x _
  simp only [presenceLoss]
  refine Reports.trans ?_ (reports_powerEnd _)
  split
  · exact absent.trans ((reports_activeLost _ x).trans (reports_fastReturnRaise _ x))
  · exact absent

theorem reports_presenceEvent (was : Bool) (x : Supply) : Reports s (presenceEvent was x s) := by
  rcases presenceEvent_cases was x s with ⟨-, eq⟩ | ⟨-, -, eq⟩ | ⟨-, -, eq⟩ <;> rw [eq]
  · exact Reports.refl s
  · exact (reports_startQualifying s x).trans (reports_powerEnd _)
  · exact reports_presenceLoss s x

theorem reports_comparatorReads (x : Supply) (volts : BitVec 12) : Reports s (comparatorReads s x volts) :=
  reports_setSupply s x _

theorem reports_settingsInstalled : Reports s (settingsInstalled s) := by
  have follows (u : State) (x : Supply) : Reports u (presenceFollows u x) :=
    (reports_comparatorReads u x _).trans (reports_presenceEvent _ _ x)
  exact (follows s .track).trans (follows _ .battery)

theorem reports_qualificationExpiry (x : Supply) : Reports s (qualificationExpiry s x) := by
  simp only [qualificationExpiry]
  split
  · exact (reports_supplyQualified s x).trans (reports_powerEnd _)
  · exact Reports.refl s

/-! ### Readings and timers (R119, R120, R184, R186 to R188) -/

theorem reports_fastReturnResult (x : Supply) (code : Nat) : Reports s (fastReturnResult s x code) := by
  have heard := reports_setSupply s x { supplyOf s.ppm x with fastReturn := false }
  simp only [fastReturnResult]
  split
  · exact heard.trans (reports_supplyQualified _ x)
  · exact heard

theorem reports_bufferReading (code : Nat) : Reports s (bufferReading s code) := by
  simp only [bufferReading]
  split
  · exact reports_enterHold s
  · exact Reports.refl s

theorem reports_currentReading (r : Nat) : Reports s (currentReading s r) := by
  simp only [currentReading]
  (repeat' split) <;> exact Reports.of_face rfl

theorem reports_powerReading (c : Channel) (source : Source) (code : Nat) : Reports s (powerReading s c source code) := by
  have fastReturn (x : Supply) : Reports s (if source = .inject then fastReturnResult s x code else s) := by
    split
    · exact reports_fastReturnResult s x code
    · exact Reports.refl s
  have board : Reports s (boardReading s code) := Reports.of_face rfl
  cases c <;> simp only [powerReading]
  case trackV => exact (fastReturn .track).trans (reports_powerEnd _)
  case batteryV => exact (fastReturn .battery).trans (reports_powerEnd _)
  case bufferV => exact (reports_bufferReading s code).trans (reports_powerEnd _)
  case supplyI => exact (reports_currentReading s code).trans (reports_powerEnd _)
  case boardT => exact board.trans (reports_powerEnd _)
  all_goals exact Reports.refl s

theorem reports_codeDelivered (c : Conversion) (code : Nat) : Reports s (codeDelivered s c code) := by
  simp only [codeDelivered]
  split
  · exact reports_judgeTrip s code
  · exact reports_bemfResult s code
  · exact reports_smokeResult s code
  · exact reports_powerReading s _ _ code
  · exact reports_powerReading s _ _ code

theorem reports_conversionDone (code : BitVec 12) : Reports s (conversionDone s code) := by
  have acts (u : State) : Reports u (arbiterActs u) := Reports.of_face (by simp)
  simp only [conversionDone]
  split
  · exact Reports.refl s
  · next c _ =>
    split
    · have freed : Reports s (s.setMsq { s.msq with converting := none }) := Reports.of_face rfl
      exact freed.trans (acts _)
    · have read (q : Msq) : Reports s (gapReported ((senseRead s c.channel code).setMsq q) c) := by
        simp only [gapReported]
        refine Reports.of_face ?_
        split <;> simp
      exact (read _).trans ((reports_codeDelivered _ c _).trans (acts _))

theorem reports_coastExpiry : Reports s (coastExpiry s) := by
  simp only [coastExpiry]
  split
  · exact (reports_enterHold s).trans (reports_powerEnd _)
  · exact Reports.refl s

/-- A timer of PPM's that leaves the power state alone, and the end of its event. -/
theorem reports_timer {p : Ppm} (q : Msq) (same : p.power = s.ppm.power) : Reports s (powerEnd ((s.setPpm p).setMsq q)) :=
  Reports.trans (Reports.of_face (by simp [same])) (reports_powerEnd _)

theorem reports_powerTimers : Reports s (bufferExpiry s) ∧ Reports s (overExpiry s) ∧ Reports s (underExpiry s) := by
  simp only [bufferExpiry, overExpiry, underExpiry]
  refine ⟨?_, ?_, ?_⟩ <;> split
  case refine_1.isTrue => exact reports_timer s _ rfl
  case refine_2.isTrue | refine_3.isTrue => exact reports_timer s s.msq rfl
  all_goals exact Reports.refl s

end

end Sys2Proof.Laws
end

section
/-!
SUPPORT. The events that concern FNU in nothing: none changes an owner's conditions or what a target holds of a delivery. Each
conjunct is a rewriting rule of `simp`.
-/
namespace Sys2Proof.Laws

open Sys2Proof.Machine

/-! ### SND and SMK keep what FNU has delivered (R64) -/

section
variable (s : State)

@[simp] theorem soundChuff_mute (index : Nat) : (soundChuff s index).snd.mute = s.snd.mute := by
  simp only [soundChuff]
  split <;> rfl

@[simp] theorem smokeChuff_unit :
    (smokeChuff s).smk.enable = s.smk.enable ∧ (smokeChuff s).smk.state = s.smk.state := by
  simp only [smokeChuff]
  split <;> exact ⟨rfl, rfl⟩

@[simp] theorem chuffEmitted_delivered :
    (chuffEmitted s).snd.mute = s.snd.mute ∧ (chuffEmitted s).smk.enable = s.smk.enable ∧
      (chuffEmitted s).smk.state = s.smk.state := by
  simp [chuffEmitted]

@[simp] theorem camTick_delivered :
    (camTick s).snd.mute = s.snd.mute ∧ (camTick s).smk.enable = s.smk.enable ∧ (camTick s).smk.state = s.smk.state := by
  simp only [camTick, virtualStep]
  (repeat' split) <;> simp

@[simp] theorem camEdge_delivered (now : Nat) :
    (camEdge s now).snd.mute = s.snd.mute ∧ (camEdge s now).smk.enable = s.smk.enable ∧
      (camEdge s now).smk.state = s.smk.state := by
  simp only [camEdge, edgeAccepted]
  (repeat' split) <;> simp

@[simp] theorem smokeRequestExpiry_unit :
    (smokeRequestExpiry s).smk.enable = s.smk.enable ∧ (smokeRequestExpiry s).smk.state = s.smk.state := by
  simp only [smokeRequestExpiry]
  split <;> exact ⟨rfl, rfl⟩

@[simp] theorem smokeAgeExpiry_unit :
    (smokeAgeExpiry s).smk.enable = s.smk.enable ∧ (smokeAgeExpiry s).smk.state = s.smk.state := by
  simp only [smokeAgeExpiry]
  split <;> exact ⟨rfl, rfl⟩

@[simp] theorem puffExpiry_unit :
    (puffExpiry s).smk.enable = s.smk.enable ∧ (puffExpiry s).smk.state = s.smk.state := by
  simp only [puffExpiry]
  split <;> exact ⟨rfl, rfl⟩

@[simp] theorem cuesInstalled_mute : (cuesInstalled s).snd.mute = s.snd.mute := by
  simp only [cuesInstalled]
  split <;> rfl

@[simp] theorem chuffAdvance_mute : (chuffAdvance s).snd.mute = s.snd.mute := by
  simp only [chuffAdvance]
  split <;> rfl

@[simp] theorem backgroundAdvance_mute : (backgroundAdvance s).snd.mute = s.snd.mute := by
  simp only [backgroundAdvance]
  split <;> rfl

@[simp] theorem poolFallsFree_mute (place : Nat) : (poolFallsFree s place).snd.mute = s.snd.mute := by
  simp only [poolFallsFree]
  split <;> rfl

@[simp] theorem poolFinished_mute (place : Nat) (v : Voice) (next : Option Nat) :
    (poolFinished s place v next).snd.mute = s.snd.mute := by
  simp only [poolFinished]
  (repeat' split) <;> simp

@[simp] theorem poolAdvance_mute (place : Nat) : (poolAdvance s place).snd.mute = s.snd.mute := by
  simp only [poolAdvance]
  (repeat' split) <;> simp

@[simp] theorem outputSampled_mute (inTime : BitVec 6) : (outputSampled s inTime).snd.mute = s.snd.mute := by
  have background : (backgroundTakenUp s).snd.mute = s.snd.mute := by
    simp only [backgroundTakenUp]
    split <;> rfl
  simp only [outputSampled]
  split
  · simp [voicesAdvance, background]
  · rfl

@[simp] theorem eraseDone_mute : (eraseDone s).snd.mute = s.snd.mute := by
  simp only [eraseDone]
  split <;> rfl

@[simp] theorem programDone_mute : (programDone s).snd.mute = s.snd.mute := by
  simp only [programDone]
  split <;> rfl

end

/-! ### The events of the blocks beside FNU -/

section
variable (s : State)

/-- The back-EMF timer and its request are no concern of FNU (R78, R105). -/
theorem reports_bemfExpiry : Reports s (bemfExpiry s) := by
  have offered (u : State) : face (gapOffer u) = face u := by
    simp only [gapOffer]
    (repeat' split) <;> rfl
  refine Reports.of_face ?_
  simp only [bemfExpiry]
  (repeat' split) <;> first
    | rfl
    | exact (offered _).trans rfl

theorem reports_nvCompleted : Reports s (nvCompleted s) := by
  refine Reports.of_face ?_
  simp only [nvCompleted]
  split <;> rfl

/-- A configuration request that leaves the active copies alone, and its reply (R40 to R44). -/
theorem reports_request {b : Tbs} (active : b.active = s.tbs.active) (old : State) (kind : Nat) (a : Answer) :
    Reports s (answered old (s.setTbs b) kind a) := Reports.of_face (by simp [answered, offerReply, active])

theorem cfgOpen_active (b : Tbs) (id : Nat) : (cfgOpen b id).1.active = b.active := by
  simp only [cfgOpen]
  (repeat' split) <;> rfl

theorem cfgPoint_active (b : Tbs) (index : Nat) : (cfgPoint b index).1.active = b.active := by
  simp only [cfgPoint]
  (repeat' split) <;> rfl

theorem cfgWrite_active (b : Tbs) (data : List Byte) : (cfgWrite b data).1.active = b.active := by
  simp only [cfgWrite]
  (repeat' split) <;> rfl

theorem cfgClose_active (b : Tbs) : (cfgClose b).1.active = b.active := by
  simp only [cfgClose]
  (repeat' split) <;> rfl

variable (f : Frame) (via : Via)

theorem reports_handStatus : Reports s (handStatus s f via) := by
  refine Reports.of_face ?_
  simp only [handStatus]
  split <;> rfl

/-- The requests to the sample memory reach SND's write state and the replies (R146, R147). -/
theorem reports_handErase : Reports s (handErase s f via) := by
  refine Reports.of_face ?_
  simp only [handErase]
  split <;> rfl

theorem reports_handProgram : Reports s (handProgram s f via) := by
  refine Reports.of_face ?_
  simp only [handProgram]
  split <;> rfl

end

end Sys2Proof.Laws
end

section
/-!
SUPPORT. FNU's own acts (R60, R61, R67): a delivery reaches its target with the level that FNU keeps for it, and TRC and SMK tell
FNU of what it brings about; so the laws of the map, of the levels delivered and of the copies pass through the taking of
publications.
-/
namespace Sys2Proof.Laws

open Sys2Proof.Machine

/-! ### One delivery -/

section
variable {o : Owner} {s : State}

/-- FNU's copies and what waits stay, whatever else of FNU is replaced. -/
theorem Copied.setFnu (law : Copied o s) {f : Fnu} (waiting : f.waiting = s.fnu.waiting)
    (same : copies f = copies s.fnu) : Copied o (s.setFnu f) :=
  law.congr (copies_copiesToCome_congr waiting same) (sameOwner_of_blocks rfl rfl rfl rfl)

theorem Copied.setDelivered (law : Copied o s) (d : Outputs) : Copied o (setDelivered s d) := law.setFnu rfl rfl

theorem Copied.smokeEnable (law : Copied o s) (on : Bool) : Copied o (smokeEnable s on) := by
  have quiet (k : Smk) (state : k.state = s.smk.state) : Copied o (s.setSmk k) := by
    refine law.congr rfl ?_
    cases o
    case smoke => rw [SameOwner, setSmk_smk, state]
    all_goals first | exact ⟨rfl, rfl, rfl⟩ | rfl
  cases on
  · simp only [Machine.smokeEnable, smokeEnableOff, Bool.false_eq_true, if_false]
    split
    · exact quiet _ rfl
    · exact copied_smokeEnd law ⟨rfl, rfl, rfl, rfl⟩
  · simp only [Machine.smokeEnable, smokeEnableOn, if_true]
    split
    · exact copied_smokeEnd law (by simp)
    · exact quiet _ rfl

theorem Copied.soundMute (law : Copied o s) (on : Bool) : Copied o (soundMute s on) :=
  law.congr (by simp) (sameOwner_of_blocks (by simp) (by simp) (by simp) (by simp))

theorem Copied.tractionShunt (law : Copied o s) (on : Bool) : Copied o (tractionShunt s on) := by
  refine (reports_retarget _).copied o (law.congr rfl ?_)
  cases o <;> first | exact ⟨rfl, rfl, rfl⟩ | rfl

theorem Copied.tractionMomentum (law : Copied o s) (on : Bool) : Copied o (tractionMomentum s on) := by
  refine law.congr rfl ?_
  cases o <;> first | exact ⟨rfl, rfl, rfl⟩ | rfl

theorem Copied.deliverEntry (law : Copied o s) (new : Outputs) (e : MapEntry) (on : Bool) :
    Copied o (deliverEntry new e on s) := by
  rcases action : e.action with _ | (⟨n, d⟩ | c | _ | _ | _ | _) <;> simp only [Machine.deliverEntry, action]
  case none => exact law
  case some.lamp =>
    have demanded (u : State) (d : Option LampDemand) : Reports u (lampDemanded u n d) := Reports.of_face (by simp)
    simp only [deliverLamp]
    split
    · exact law
    · exact (demanded _ _).copied o (law.setDelivered _)
  case some.cue =>
    have triggered : Reports s (soundTrigger s c) := Reports.of_face (by simp)
    have released : Reports s (soundRelease s c) := Reports.of_face (by simp)
    split
    · exact triggered.copied o law
    · exact released.copied o law
  case some.smoke =>
    simp only [deliverSmoke]
    split
    · exact law
    · exact (law.setDelivered _).smokeEnable _
  case some.mute =>
    simp only [deliverMute]
    split
    · exact law
    · exact (law.setDelivered _).soundMute _
  case some.shunt =>
    simp only [deliverShunt]
    split
    · exact law
    · exact (law.setDelivered _).tractionShunt _
  case some.momentumOff =>
    simp only [deliverMomentum]
    split
    · exact law
    · exact (law.setDelivered _).tractionMomentum _

end

theorem smokeEnable_enable (s : State) (on : Bool) : (smokeEnable s on).smk.enable = on := by
  cases on <;> simp only [smokeEnable, smokeEnableOn, smokeEnableOff, Bool.false_eq_true, if_false, if_true] <;> split
  case false.isTrue | false.isFalse | true.isFalse => simp
  case true.isTrue =>
    simp only [smokeEnd_keeps, smokeRequest_keeps, setSmk_smk]
    split <;> rfl

theorem soundMute_mute (s : State) (on : Bool) : (soundMute s on).snd.mute = on := by simp [soundMute]

theorem tractionShunt_shunt (s : State) (on : Bool) : (tractionShunt s on).trc.shunt = on := by
  obtain ⟨-, levels, -⟩ := reports_retarget (s.setTrc { s.trc with shunt := on })
  simp only [heldLevels, Prod.mk.injEq] at levels
  obtain ⟨-, -, shunt, -⟩ := levels
  exact shunt

/-- A delivery brings its target to the level that FNU then keeps as delivered. -/
theorem deliveredSafe_deliverEntry {s : State} (h : DeliveredSafe s) (new : Outputs) (e : MapEntry) (on : Bool) :
    DeliveredSafe (deliverEntry new e on s) := by
  obtain ⟨smoke, mute, shunt, momentum⟩ := h
  rw [DeliveredSafe, deliverEntry_delivered]
  rcases action : e.action with _ | (⟨n, d⟩ | c | _ | _ | _ | _) <;> simp only [deliverEntry, deliveredAfter, action]
  case none => exact ⟨smoke, mute, shunt, momentum⟩
  case some.lamp => simp [smoke, mute, shunt, momentum]
  case some.cue => cases on <;> simp [smoke, mute, shunt, momentum]
  case some.smoke =>
    obtain ⟨-, smk⟩ := deliverSmoke_spec new s
    refine ⟨?_, by simp [mute, shunt, momentum]⟩
    rw [smk]
    split
    case isTrue same => exact smoke.trans same
    case isFalse => exact smokeEnable_enable s _
  case some.mute =>
    obtain ⟨-, snd⟩ := deliverMute_spec new s
    refine ⟨by simp [smoke], ?_, by simp [shunt, momentum]⟩
    rw [snd]
    split
    case isTrue same => exact mute.trans same
    case isFalse => exact soundMute_mute s _
  case some.shunt =>
    obtain ⟨-, trc⟩ := deliverShunt_spec new s
    refine ⟨by simp [smoke], by simp [mute], ?_⟩
    rw [trc]
    split
    case isTrue same => exact ⟨shunt.trans same, momentum⟩
    case isFalse => exact ⟨tractionShunt_shunt s _, (tractionShunt_momentumOff s _).trans momentum⟩
  case some.momentumOff =>
    obtain ⟨-, trc⟩ := deliverMomentum_spec new s
    refine ⟨by simp [smoke], by simp [mute], ?_⟩
    rw [trc]
    split
    case isTrue same => exact ⟨shunt, momentum.trans same⟩
    case isFalse => exact ⟨shunt, rfl⟩

/-! ### The deliveries of a walk -/

section
variable (new : Outputs) (events : List (MapEntry × Bool))

theorem Copied.deliverAll {o : Owner} {s : State} (law : Copied o s) : Copied o (deliverAll new events s) := by
  induction events generalizing s with
  | nil => exact law
  | cons x rest ih => exact ih (law.deliverEntry new x.1 x.2)

theorem deliveredSafe_deliverAll {s : State} (h : DeliveredSafe s) : DeliveredSafe (deliverAll new events s) := by
  induction events generalizing s with
  | nil => exact h
  | cons x rest ih => exact ih (deliveredSafe_deliverEntry h new x.1 x.2)

end

/-! ### The three laws, from one state to another -/

/-- The laws of the map, of the levels delivered and of every owner's copies each pass from `s` to `t`. -/
structure Agrees (s t : State) : Prop where
  map : MapSafe s → MapSafe t
  delivered : DeliveredSafe s → DeliveredSafe t
  copied : ∀ o, Copied o s → Copied o t

theorem Agrees.refl (s : State) : Agrees s s := ⟨id, id, fun _ => id⟩

theorem Agrees.trans {s t u : State} (h : Agrees s t) (h' : Agrees t u) : Agrees s u :=
  ⟨fun m => h'.map (h.map m), fun d => h'.delivered (h.delivered d), fun o c => h'.copied o (h.copied o c)⟩

/-- MapSafe takes no account of what waits for FNU. -/
theorem mapSafe_congr {s t : State} (fnu : atRest t.fnu = atRest s.fnu) (map : t.tbs.active.map = s.tbs.active.map)
    (h : MapSafe s) : MapSafe t := by
  simp only [atRest, Fnu.mk.injEq] at fnu
  obtain ⟨functions, conditions, drive, activity, delivered, -⟩ := fnu
  rw [MapSafe, activeEntries, map, activity, delivered, entryActive_congr functions conditions drive]
  exact h

theorem Reports.agrees {s t : State} (h : Reports s t) : Agrees s t where
  map := mapSafe_congr h.fnu h.map
  delivered d := by
    obtain ⟨fnu, levels, -⟩ := h
    simp only [atRest, Fnu.mk.injEq] at fnu
    simp only [heldLevels, Prod.mk.injEq] at levels
    obtain ⟨-, -, -, -, delivered, -⟩ := fnu
    obtain ⟨enable, mute, shunt, momentum⟩ := levels
    rw [DeliveredSafe, delivered, enable, mute, shunt, momentum]
    exact d
  copied := h.copied

/-! ### Evaluations and the taking of publications (R57, R60) -/

/-- An evaluation for functions and copies newly in place, with the same copies to come to. -/
theorem agrees_evaluate {s : State} {f : Fnu} (activity : f.activity = s.fnu.activity)
    (delivered : f.delivered = s.fnu.delivered) (toCome : copies (copiesToCome f) = copies (copiesToCome s.fnu)) :
    Agrees s (evaluate (s.setFnu f)) where
  map h := mapSafe_evaluate h activity delivered
  delivered h := by
    have put : DeliveredSafe (s.setFnu f) := by
      rw [DeliveredSafe, setFnu_fnu, delivered]
      exact h
    simp only [evaluate, walk_eq]
    exact deliveredSafe_deliverAll _ _ put
  copied o law := by
    have put : Copied o (s.setFnu f) := law.congr toCome (sameOwner_of_blocks rfl rfl rfl rfl)
    simp only [evaluate, walk_eq]
    exact (put.deliverAll _ _).setFnu rfl rfl

/-- FNU takes the publication that has waited longest. -/
theorem agrees_takePublication {s : State} {p : Publication} {rest : List Publication} (h : s.fnu.waiting = p :: rest) :
    Agrees s (takePublication (s.setFnu { s.fnu with waiting := rest }) p) := by
  have toCome := copies_take h
  let f := copiesAfter { s.fnu with waiting := rest } p
  have kept : f.activity = s.fnu.activity ∧ f.delivered = s.fnu.delivered ∧ f.waiting = rest := by
    cases p <;> exact ⟨rfl, rfl, rfl⟩
  obtain ⟨activity, delivered, waiting⟩ := kept
  simp only [takePublication]
  split
  case isFalse => exact agrees_evaluate activity delivered toCome
  case isTrue unchanged =>
    simp only [Bool.and_eq_true, decide_eq_true_eq] at unchanged
    obtain ⟨conditions, drive⟩ := unchanged
    have same : copies { s.fnu with waiting := rest } = copies f := (congrArg₂ Prod.mk conditions drive).symm
    have come : copies (copiesToCome { s.fnu with waiting := rest }) = copies (copiesToCome f) :=
      copies_copiesToCome_congr waiting.symm same
    refine ⟨mapSafe_congr rfl rfl, id, fun o law => law.congr (come.trans toCome) ?_⟩
    exact sameOwner_of_blocks rfl rfl rfl rfl

theorem agrees_fnuSettle (s : State) : Agrees s (fnuSettle s) := by
  suffices turns : ∀ n u, Agrees u (fnuTake n u) from turns fnuTurns s
  intro n
  induction n with
  | zero => exact Agrees.refl
  | succ n ih =>
    intro u
    rw [fnuTake]
    split
    case h_1 => exact Agrees.refl u
    case h_2 waits => exact (agrees_takePublication waits).trans (ih _)

/-! ### FUNC and the installation of a map (R56, R67) -/

theorem agrees_functionsHanded (s : State) (group states low high : Nat) :
    Agrees s (functionsHanded s group states low high) := by
  simp only [functionsHanded]
  split
  · exact Agrees.refl s
  · exact agrees_evaluate rfl rfl (copies_copiesToCome_congr rfl rfl)

theorem agrees_mapInstalled (s : State) (bytes : List Byte) :
    Agrees s (mapInstalled (activePut s .map bytes) s.tbs.active.map) where
  map := fun ⟨activity, delivered⟩ => mapSafe_mapInstalled (s := activePut s .map bytes) activity delivered
  delivered h := by
    have put : DeliveredSafe (activePut s .map bytes) := h
    simp only [mapInstalled, installWalk_eq]
    exact deliveredSafe_deliverAll _ _ put
  copied o law := by
    have put : Copied o (activePut s .map bytes) := law.congr rfl (sameOwner_of_blocks rfl rfl rfl rfl)
    simp only [mapInstalled, installWalk_eq]
    exact (put.deliverAll _ _).setFnu rfl rfl

end Sys2Proof.Laws
end

section
/-!
PROOFS. Every command keeps the laws of the map, of the levels delivered and of the copies (R57, R58, R60, R61, R98).
-/
namespace Sys2Proof.Laws

open Sys2Proof.Machine

/-! ### The frames (R20, R25 to R32, R45) -/

section
variable (s : State)

theorem agrees_ownerHeard : Agrees s (ownerHeard s) := by
  have restarted := (reports_lossRestart s).agrees
  simp only [ownerHeard, signalCleared]
  split
  · exact restarted.trans ((reports_signal _ false).agrees.trans (agrees_fnuSettle _))
  · exact restarted

theorem agrees_dispatch (row : Frame → Bool) {hand : State → Frame → Via → State}
    (handed : ∀ u f via, Agrees u (hand u f via)) : Agrees s (dispatch row hand s) := by
  have taken (f : Frame) (rest : List Frame) : Agrees s (frameTaken s f rest) :=
    (Reports.of_face (by simp) : Reports s (frameTaken s f rest)).agrees
  rcases dispatch_cases row hand s with eq | ⟨f, rest, eq | ⟨via, eq⟩⟩ <;> rw [eq]
  · exact Agrees.refl s
  · exact taken f rest
  · exact (taken f rest).trans (handed _ f via)

variable (f : Frame) (via : Via)

theorem agrees_handDrive : Agrees s (handDrive s f via) := by
  simp only [handDrive]
  split
  · exact (agrees_ownerHeard s).trans (reports_driveCommand _ _ _).agrees
  · exact Agrees.refl s

theorem agrees_handHaltNormal : Agrees s (handHaltNormal s f via) := by
  simp only [handHaltNormal, haltStated]
  split
  · exact (agrees_ownerHeard s).trans (reports_driveCommand _ _ _).agrees
  · exact Agrees.refl s

theorem agrees_handHaltEmergency : Agrees s (handHaltEmergency s f via) := by
  simp only [handHaltEmergency]
  split
  · exact (agrees_ownerHeard s).trans (reports_emergencyHalt _).agrees
  · exact (reports_emergencyHalt s).agrees

theorem agrees_handFunc : Agrees s (handFunc s f via) := by
  cases via
  · exact Agrees.refl s
  · exact agrees_functionsHanded s _ _ _ _

theorem reports_addressInstalled (old : AddressEntry) : Reports s (addressInstalled s old) := by
  simp only [addressInstalled]
  (repeat' split) <;> first
    | exact reports_lossRestart s
    | exact reports_statedInverted s
    | exact Reports.refl s

/-- A table newly in force and its owner's act on it (R32, R51, R67). -/
theorem agrees_tableInstalled (t : TableId) (bytes : List Byte) : Agrees s (tableInstalled s t bytes) := by
  have put (other : t ≠ .map) : Reports s (activePut s t bytes) :=
    Reports.of_face (by cases t <;> first | rfl | exact absurd rfl other)
  cases t <;> simp only [tableInstalled, ownerInstalls]
  case map => exact agrees_mapInstalled s bytes
  case settings => exact ((put nofun).trans (reports_settingsInstalled _)).agrees
  case address => exact ((put nofun).trans (reports_addressInstalled _ _)).agrees
  case speed => exact ((put nofun).trans (reports_retarget _)).agrees
  case cues => exact ((put nofun).trans (Reports.of_face (by simp))).agrees
  case lamps => exact ((put nofun).trans (Reports.of_face (by simp))).agrees

theorem agrees_handCommit : Agrees s (handCommit s f via) := by
  have replied (u : State) (a : Answer) : Agrees u (answered s u 8 a) :=
    (Reports.of_face rfl : Reports u (answered s u 8 a)).agrees
  have begun (u : State) (t : TableId) : Agrees u (writeBegun u t) :=
    (Reports.of_face rfl : Reports u (writeBegun u t)).agrees
  refine Agrees.trans ?_ (replied _ _)
  rcases cfgCommit_cases s with eq | ⟨t, -, -, eq⟩ <;> rw [eq]
  · exact Agrees.refl s
  · exact (agrees_tableInstalled s t _).trans (begun _ t)

end

/-! ### The resets (R69, R191) -/

/-- With every function off and every condition clear no entry is active. -/
theorem entryActive_reset (e : MapEntry) : entryActive fnuReset e = false := by
  have off : triggerOn fnuReset e.trigger = false := by
    cases e.trigger with
    | function n => simp [triggerOn, fnuReset]
    | condition n => simp only [triggerOn, conditionAt]; split <;> rfl
  simp [entryActive, off]

/-- After a reset the laws hold whatever map has been loaded. -/
theorem agrees_reset (s : State) {t : State} (fnu : t.fnu = fnuReset) (dsp : t.dsp = dspReset)
    (trc : tractionFace t.trc = tractionFace trcReset) (snd : t.snd = sndReset) (smk : t.smk = smkReset)
    (power : t.ppm.power = .init) : Agrees s t := by
  simp only [tractionFace, Prod.mk.injEq] at trc
  obtain ⟨published, conditions, drive, shunt, momentum⟩ := trc
  refine ⟨fun _ => ?_, fun _ => ?_, fun o _ => ?_⟩
  · have inactive : entryActive fnuReset = fun _ => false := funext entryActive_reset
    rw [MapSafe, activeEntries, fnu, inactive]
    simp [mapEntries]
    decide
  · rw [DeliveredSafe, fnu, snd, smk, shunt, momentum]
    decide
  · cases o <;> simp only [Copied, CopiesOf, fnu, dsp, smk, power, published, conditions, drive] <;> decide

theorem agrees_resetTaken (s : State) (w : Nat) (phase : Phase) : Agrees s (resetTaken s w phase) :=
  agrees_reset s rfl rfl rfl rfl rfl rfl

theorem agrees_released (s : State) (kind : ResetKind) : Agrees s (released s kind) := by
  have suspended : tractionFace { trcReset with state := .suspended } = tractionFace trcReset := by decide
  have eq := released_eq s kind
  dsimp only at eq
  generalize released s kind = t at eq ⊢
  refine agrees_reset s ?_ ?_ ?_ ?_ ?_ ?_ <;> rw [eq]
  · exact suspended
  · rfl

theorem agrees_resetReleased (s : State) : Agrees s (resetReleased s) := by
  simp only [resetReleased]
  split
  · exact agrees_released s _
  · exact Agrees.refl s
  · exact Agrees.refl s

theorem reports_restoreDone (s : State) : Reports s (restoreDone s) := by
  have done (p : PerTable Image) (phase : Phase) : Reports s ((s.setStore p).setPpm { s.ppm with phase := phase }) :=
    Reports.of_face rfl
  simp only [restoreDone]
  split
  · exact done _ _
  · exact Reports.refl s
  · exact Reports.refl s

theorem agrees_handReset (phase : Phase) (s : State) (f : Frame) (via : Via) : Agrees s (handReset phase s f via) := by
  simp only [handReset]
  split
  · exact agrees_resetTaken s 0 phase
  · exact (Reports.of_face rfl : Reports s (answered s s 12 _)).agrees

/-! ### Every command -/

section
variable {f : State → State} {s t : State}

theorem agrees_live (ht : live f s = .next t) (h : Agrees s (f s)) : Agrees s t := by
  rcases live_cases ht with rfl | ⟨-, rfl⟩
  · exact Agrees.refl t
  · exact h

theorem agrees_settled (ht : settled f s = .next t) (h : Agrees s (f s)) : Agrees s t := by
  rcases settled_cases ht with rfl | ⟨-, rfl⟩
  · exact Agrees.refl t
  · exact h.trans (agrees_fnuSettle _)

end

/-- The frames by what they hand on, the events of the other blocks because they tell FNU all that concerns it, and the resets
because the reset values satisfy the laws. -/
theorem agrees_exec {i : Instr} {s t : State} (ht : exec i s = .next t) : Agrees s t := by
  cases i
  case drive => exact agrees_settled ht (agrees_dispatch s _ agrees_handDrive)
  case haltNormal => exact agrees_settled ht (agrees_dispatch s _ agrees_handHaltNormal)
  case haltEmergency => exact agrees_settled ht (agrees_dispatch s _ agrees_handHaltEmergency)
  case func => exact agrees_settled ht (agrees_dispatch s _ agrees_handFunc)
  case cfgCommit => exact agrees_settled ht (agrees_dispatch s _ agrees_handCommit)
  case replyFrameTaken => exact agrees_live ht (agrees_dispatch s _ fun u _ _ => Agrees.refl u)
  case statusReq => exact agrees_live ht (agrees_dispatch s _ fun u f via => (reports_handStatus u f via).agrees)
  case cfgOpen =>
    exact agrees_live ht (agrees_dispatch s _ fun u _ _ => (reports_request u (cfgOpen_active _ _) u 4 _).agrees)
  case cfgPoint =>
    exact agrees_live ht (agrees_dispatch s _ fun u _ _ => (reports_request u (cfgPoint_active _ _) u 6 _).agrees)
  case cfgWrite =>
    exact agrees_live ht (agrees_dispatch s _ fun u _ _ => (reports_request u (cfgWrite_active _ _) u 5 _).agrees)
  case cfgClose =>
    exact agrees_live ht (agrees_dispatch s _ fun u _ _ => (reports_request u (cfgClose_active _) u 9 _).agrees)
  case cfgRead =>
    exact agrees_live ht (agrees_dispatch s _ fun u _ _ => (reports_request u (b := u.tbs) rfl u 7 _).agrees)
  case sampleErase => exact agrees_live ht (agrees_dispatch s _ fun u f via => (reports_handErase u f via).agrees)
  case sampleWrite => exact agrees_live ht (agrees_dispatch s _ fun u f via => (reports_handProgram u f via).agrees)
  case resetNormal | resetFactory => exact agrees_live ht (agrees_dispatch s _ (agrees_handReset _))
  case factoryRestoreComplete =>
    cases ht
    exact (reports_restoreDone s).agrees
  case powerOnReset | brownoutReset =>
    cases ht
    exact agrees_resetTaken s _ _
  case resetRelease =>
    cases ht
    exact agrees_resetReleased s
  case commandLossTimerExpiry => exact agrees_settled ht (reports_lossExpiry s).agrees
  case rampTick => exact agrees_settled ht (reports_rampTick s).agrees
  case stallTimerExpiry => exact agrees_settled ht (reports_stallExpiry s).agrees
  case overcurrentTrip => exact agrees_settled ht (reports_overcurrent s _).agrees
  case retryTimerExpiry => exact agrees_settled ht (reports_retryExpiry s).agrees
  case conversionComplete => exact agrees_settled ht (reports_conversionDone s _).agrees
  case qualificationTimerExpiry => exact agrees_settled ht (reports_qualificationExpiry s _).agrees
  case coastTimerExpiry => exact agrees_settled ht (reports_coastExpiry s).agrees
  case bufferRequestTimerExpiry =>
    obtain ⟨request, -, -⟩ := reports_powerTimers s
    exact agrees_settled ht request.agrees
  case overTimerExpiry =>
    obtain ⟨-, overvoltage, -⟩ := reports_powerTimers s
    exact agrees_settled ht overvoltage.agrees
  case underTimerExpiry =>
    obtain ⟨-, -, undervoltage⟩ := reports_powerTimers s
    exact agrees_settled ht undervoltage.agrees
  case presenceGained v | presenceLost v =>
    have read : Agrees s (comparatorReads s v.source v.voltage) := (reports_comparatorReads s _ _).agrees
    have event (u : State) (was : Bool) (x : Supply) : Agrees u (presenceEvent was x u) :=
      (reports_presenceEvent u was x).agrees
    refine Agrees.trans ?_ (agrees_settled ht (event _ _ _))
    split <;> first
      | exact read
      | exact Agrees.refl s
  case bemfTimerExpiry => exact agrees_live ht (reports_bemfExpiry s).agrees
  case nvWriteComplete => exact agrees_live ht (reports_nvCompleted s).agrees
  case silenceWatchElapsed | virtualChuff =>
    have tick : Agrees s (camTick s) := (Reports.of_face (by simp) : Reports s (camTick s)).agrees
    refine agrees_live ht ?_
    split
    · exact tick
    · exact Agrees.refl s
  case characterReceived | brokenCharacter | interByteTimerExpiry | replyFrameSent | relayFrameSent | eraseComplete
      | programComplete | pwmPeriodEnd | settleTimerExpiry | tripFreeTimerExpiry | scanTimerExpiry | camTick | camEdge
      | outputSample | smokeRequestTimerExpiry | ageTimerExpiry | puffTimerExpiry | flickerAdvance | blinkTimerExpiry
      | softTimerExpiry =>
    exact agrees_live ht (Reports.of_face (by simp)).agrees

/-- On an empty queue FNU takes what waits. -/
theorem agrees_step {s t : State} (ht : step s = .next t) : Agrees s t := by
  cases pending : s.pending with
  | nil =>
    simp only [step, pending] at ht
    cases ht
    exact agrees_fnuSettle s
  | cons c rest =>
    simp only [step, pending] at ht
    have front : Reports s (s.setPending rest) := Reports.of_face rfl
    exact front.agrees.trans (agrees_exec ht)

/-- Settles O29: each of the laws passes through every step. -/
theorem mapAndCopiesStaySound : Obligations.MapAndCopiesStaySound := by
  unfold Obligations.MapAndCopiesStaySound
  refine ⟨fun s t ht => ⟨(agrees_step ht).map, (agrees_step ht).delivered⟩, fun s t copied ht => ?_⟩
  exact (copiesSafe_iff t).mpr fun o => (agrees_step ht).copied o ((copiesSafe_iff s).mp copied o)

end Sys2Proof.Laws
end

section
/-!
PROOFS. The step, and FNU clause by clause: the taking of publications (R57, R58), when an entry is active (R60), what a set of
active entries gives (R63 to R65), and what a delivery of shunt does at TRC (R72, R78, R94).
-/
namespace Sys2Proof.Laws

open Sys2Proof.Machine

/-! ### The step -/

/-- Settles O1. -/
theorem stepTakesTheFrontCommand : Obligations.StepTakesTheFrontCommand := by
  unfold Obligations.StepTakesTheFrontCommand
  have idle (s : State) (empty : s.pending = []) : step s = .next (fnuSettle s) := by rw [step, empty]
  refine ⟨fun s c rest front => by rw [step, front], idle, fun s empty settled => ?_⟩
  rw [idle s empty, fnuSettle_of_nil settled]

/-! ### The taking of publications (R57, R58, R60) -/

theorem fnuSettle_sameBut (s : State) : SameBut [.fnu, .trc, .mbr, .msq, .snd, .smk, .lmp] s (fnuSettle s) := by
  intro p hp
  cases p <;> simp [partSame] at hp ⊢

/-- A publication leads to an evaluation exactly if it changes a copy. -/
theorem takePublication_eq (s : State) (p : Publication) :
    takePublication s p =
      if (copiesAfter s.fnu p).conditions = s.fnu.conditions ∧ (copiesAfter s.fnu p).drive = s.fnu.drive then s
      else evaluate (s.setFnu (copiesAfter s.fnu p)) :=
  if_congr (by rw [Bool.and_eq_true, decide_eq_true_iff, decide_eq_true_iff]) rfl rfl

theorem fnuTake_of_waiting {s : State} (n : Nat) {p : Publication} {rest : List Publication}
    (waits : s.fnu.waiting = p :: rest) :
    let f := copiesAfter { s.fnu with waiting := rest } p
    fnuTake (n + 1) s =
      if f.conditions = s.fnu.conditions ∧ f.drive = s.fnu.drive then fnuTake n (s.setFnu { s.fnu with waiting := rest })
      else fnuTake n (evaluate (s.setFnu f)) := by
  intro f
  rw [fnuTake, waits, ← apply_ite (fnuTake n)]
  simp only [takePublication_eq, setFnu_fnu, setFnu_twice]
  rfl

/-! ### Active entries (R60) -/

/-- The conditions by their numbers (Table 4-1). -/
theorem conditionAt_eq (c : Conditions) (n : Nat) :
    conditionAt c n = [c.moving, c.accelerating, c.decelerating, c.loaded, c.signalLost, c.coasting, c.stalled,
      c.smokeReady].getD n false := by
  simp only [conditionAt]
  split <;> first
    | rfl
    | next h0 h1 h2 h3 h4 h5 h6 h7 =>
      have beyond : 8 ≤ n := by
        simp only [imp_false] at h0 h1 h2 h3 h4 h5 h6 h7
        omega
      exact (List.getD_eq_default _ _ beyond).symm

theorem directionHolds_iff (f : Fnu) (q : Option DirQualifier) :
    directionHolds f q = true ↔ q = some .any ∨ q = some .fwd ∧ f.drive = .fwd ∨ q = some .rev ∧ f.drive = .rev := by
  rcases q with _ | (_ | _ | _) <;> simp [directionHolds]

theorem motionHolds_iff (f : Fnu) (q : Option MotionQualifier) :
    motionHolds f q = true ↔ q = some .any ∨ q = some .moving ∧ f.conditions.moving = true ∨
      q = some .stopped ∧ f.conditions.moving = false := by
  rcases q with _ | (_ | _ | _) <;> simp [motionHolds]

theorem entryActive_iff (f : Fnu) (e : MapEntry) :
    entryActive f e = true ↔ e.used = true ∧ triggerOn f e.trigger = true ∧ directionHolds f e.direction = true ∧
      motionHolds f e.motion = true := by
  simp only [entryActive, Bool.and_eq_true, and_assoc]

/-! ### The outputs of a set of active entries (R63 to R65) -/

theorem lampOf_eq_some_iff (n : Nat) (e : MapEntry) (d : LampDemand) : lampOf n e = some d ↔ e.action = some (.lamp n d) := by
  rcases action : e.action with _ | (⟨m, d'⟩ | c | _ | _ | _ | _) <;> simp [lampOf, action]

theorem lampOf_eq_none_iff (n : Nat) (e : MapEntry) : lampOf n e = none ↔ ∀ d, e.action ≠ some (.lamp n d) := by
  simp only [Option.eq_none_iff_forall_ne_some, ne_eq, lampOf_eq_some_iff]

/-- A lamp takes the demand of the first active entry for it. -/
theorem outputsFor_lamp_first {active before after : List MapEntry} {n : Nat} {e : MapEntry} {d : LampDemand} (hn : n < 8)
    (split : active = before ++ e :: after) (action : e.action = some (.lamp n d))
    (first : ∀ x ∈ before, ∀ d', x.action ≠ some (.lamp n d')) : (outputsFor active).lamps.getD n none = some d := by
  have none_ : before.findSome? (lampOf n) = none :=
    List.findSome?_eq_none_iff.mpr fun x hx => (lampOf_eq_none_iff n x).mpr (first x hx)
  rw [outputsFor_lamp _ hn, split, List.findSome?_append, none_, Option.none_or,
    List.findSome?_cons_of_isSome] <;> simp [(lampOf_eq_some_iff n e d).mpr action]

theorem actionActive_iff (active : List MapEntry) (a : Action) :
    actionActive active a = true ↔ ∃ e ∈ active, e.action = some a := by
  simp [actionActive]

/-! ### Shunt at TRC (R65, R72) -/

theorem tractionShunt_event (s : State) (on : Bool) : TractionEvent s (tractionShunt s on) := by
  obtain ⟨⟨published, fnu, demand, gap, same⟩, -⟩ := retarget_ends (s.setTrc { s.trc with shunt := on })
  refine ⟨published, fnu, demand, gap, fun p hp => ?_⟩
  have kept := same p hp
  cases p <;> first | exact kept | simp at hp

/-- The timers are tested at a change of state (R78, R94). -/
theorem retarget_timers {s : State} (changed : (retarget s).trc.state ≠ s.trc.state) :
    (retarget s).trc.bemfTimer =
        (if s.regOn = true ∧ 0 < s.trc.ramp ∧ (retarget s).trc.state = .running then
          some (s.trc.bemfTimer.getD (s.bemfPeriod * 1000)) else none) ∧
      StallTested s (retarget s) s.trc.stallTimer := by
  obtain ⟨-, p, o, trc⟩ := retarget_ends s
  obtain ⟨-, state, -⟩ := retarget_trc s
  rw [state] at changed
  have notReversing : retargetedState s ≠ .reversing := by
    intro reversing
    refine changed (reversing.trans ?_)
    cases was : s.trc.state <;> simp [retargetedState, was, ite_eq_iff] at reversing ⊢
  rw [retargeted_eq] at trc
  rw [StallTested, trc]
  simp only [ended, if_neg changed, bemfTested, stallTested, notReversing, or_false, and_self]

/-- Settles O28, clause by clause. -/
theorem fnuTakesPublicationsAndWorksOutItsOutputs : Obligations.FnuTakesPublicationsAndWorksOutItsOutputs := by
  unfold Obligations.FnuTakesPublicationsAndWorksOutItsOutputs
  refine ⟨⟨fun s settled => fnuSettle_of_nil settled, fnuSettle_sameBut, fun s n p rest waits => fnuTake_of_waiting n waits,
    fun _ _ _ => rfl, fun _ _ => ⟨rfl, rfl, rfl⟩⟩, ?_, ?_, ?_, ?_, fun s on => soundMute_eq s on⟩
  · -- an active entry
    intro f e c
    rw [entryActive_iff, directionHolds_iff, motionHolds_iff]
    cases e.trigger with
    | function n => exact Iff.rfl
    | condition n => rw [triggerOn, conditionAt_eq]
  · -- an evaluation
    intro s entries now size delivered
    obtain ⟨kept, deliveries⟩ := evaluate_deliveries size delivered
    rw [filterMap_activityChanges] at deliveries
    exact ⟨kept, deliveries⟩
  · -- the outputs
    intro active
    refine ⟨fun n hn => ?_, fun n before e after d hn split action first => outputsFor_lamp_first hn split action first,
      actionActive_iff active _, actionActive_iff active _, actionActive_iff active _, actionActive_iff active _⟩
    rw [outputsFor_lamp _ hn, List.findSome?_eq_none_iff]
    exact forall₂_congr fun e _ => lampOf_eq_none_iff n e
  · -- shunt
    intro s on u anchored
    let a := s.setTrc { s.trc with shunt := on }
    obtain ⟨target, state, trc, still⟩ := retarget_trc a
    exact ⟨tractionShunt_event s on, target, state.trans (retargetedState_of_target target), trc, still,
      fun changed => retarget_timers (s := a) changed⟩

end Sys2Proof.Laws
end

section
/-!
SUPPORT. The end of any event at TRC (R76, R78, R84, R94), and each event at TRC as one change of TRC with that end.
-/
namespace Sys2Proof.Laws

open Sys2Proof.Machine

/-! ### The end of an event -/

/-- TRC at the end of an event in `s` that has brought it to `t`, its publication and its demand apart; `tick` says that the
event is a ramp tick, `work` that the stall test is made without a change of state. -/
def endedBy (tick work : Bool) (s : State) (t : Trc) : Trc :=
  { t with
    drive := if t.ramp = 0 then t.stated else t.drive
    bemfTimer := if tick = true ∨ t.state ≠ s.trc.state then bemfTested s t else t.bemfTimer
    stallTimer := if tick = true ∨ work = true ∨ t.state ≠ s.trc.state then stallTested s t else t.stallTimer }

theorem endedTrc_eq (tick work : Bool) (s : State) (t : Trc) :
    endedTrc s.trc tick work (s.setTrc t) = endedBy tick work s t := by
  have bemf (c : Prop) [Decidable c] (u : State) : (if c then testBemfTimer u else u) =
      u.setTrc { u.trc with bemfTimer := if c then bemfTested u u.trc else u.trc.bemfTimer } := by
    rw [testBemfTimer_eq]
    split <;> rfl
  have stall (c : Prop) [Decidable c] (u : State) : (if c then testStall u else u) =
      u.setTrc { u.trc with stallTimer := if c then stallTested u u.trc else u.trc.stallTimer } := by
    rw [testStall_eq]
    split <;> rfl
  simp only [endedTrc, followDirection_eq, bemf, stall, Bool.or_eq_true, decide_eq_true_eq, or_assoc]
  rfl

/-- An event at TRC in `s`, which has brought TRC to `t`, ends in `u`. -/
def EndsBy (tick work : Bool) (s : State) (t : Trc) (u : State) : Prop :=
  TractionEvent s u ∧ ∃ p o, u.trc = { endedBy tick work s t with published := p, outstanding := o }

theorem endsBy_tractionEnd {s : State} {t : Trc} (tick work atOnce : Bool) (published : t.published = s.trc.published)
    (outstanding : t.outstanding = s.trc.outstanding) :
    EndsBy tick work s t (tractionEnd s.trc tick work atOnce (s.setTrc t)) := by
  obtain ⟨trc, fnu, demand, gap, same⟩ := tractionEnd_spec s.trc tick work atOnce (s.setTrc t)
  simp only [endedTrc_eq] at trc fnu
  refine ⟨⟨?_, ?_, demand, ?_, ?_⟩, _, _, trc⟩
  · rw [trc]
    rfl
  · rw [fnu, trc]
    simp only [setTrc_trc, published]
    rfl
  · simpa [outstanding] using gap
  · intro p hp
    have kept := same p hp
    cases p <;> first | exact kept | simp at hp

/-! ### The load (R83) -/

/-- L of TRC at `t`, under the settings in force. -/
def loadOf (s : State) (t : Trc) : Nat := if s.regOn = true ∧ 0 < t.ramp / 64 then min 255 (t.duty - t.ramp / 64) else 0

/-- TRC at `t` with L and LOADED worked out. -/
def loadTaken (s : State) (t : Trc) : Trc :=
  { t with load := loadOf s t
           loaded := if s.loadOn ≤ loadOf s t then true else if loadOf s t ≤ s.loadOff then false else t.loaded }

theorem clampInt_eq (x : Int) (n : Nat) : (clampInt x 0 n : Int) = max 0 (min (n : Int) x) := by
  simp only [clampInt]
  (repeat' split) <;> omega

theorem workOutLoad_setTrc (s : State) (t : Trc) : workOutLoad (s.setTrc t) = s.setTrc (loadTaken s t) := by
  have clamped : clampInt ((t.duty : Int) - vint t) 0 255 = min 255 (t.duty - t.ramp / 64) := by
    have := clampInt_eq ((t.duty : Int) - vint t) 255
    simp only [vint] at *
    omega
  have load : (if s.regOn && 0 < vint t then clampInt ((t.duty : Int) - vint t) 0 255 else 0) = loadOf s t := by
    rw [loadOf, clamped]
    simp [vint]
  exact congrArg (fun l => s.setTrc { t with load := l, loaded := if s.loadOn ≤ l then true
                                             else if l ≤ s.loadOff then false else t.loaded }) load

/-! ### The ramp tick (R73 to R75) -/

/-- TRC with V moved and the duty that follows from it. -/
def tickDriven (s : State) : Trc := tickDuty (s.setTrc { s.trc with ramp := rampNext s })

/-- The same with the load, and with what follows if V has come to 0. -/
def tickLanded (s : State) : Trc :=
  if rampNext s = 0 ∧ 0 < s.trc.ramp then rampStopped (loadTaken s (tickDriven s)) else loadTaken s (tickDriven s)

/-- TRC as a tick leaves it before the end of its event. -/
def ticked (s : State) : Trc := tickState (tickLanded s)

theorem tickDriven_ramp (s : State) : (tickDriven s).ramp = rampNext s := by
  simp only [tickDriven, tickDuty]
  (repeat' split) <;> rfl

theorem rampTick_eq {s : State} (moves : tickMoves s.trc.state = true) :
    rampTick s = tractionEnd s.trc true false false (s.setTrc (ticked s)) := by
  let landing (u : State) : State := if u.trc.ramp = 0 && 0 < s.trc.ramp then u.setTrc (rampStopped u.trc) else u
  have landed : landing (s.setTrc (loadTaken s (tickDriven s))) = s.setTrc (tickLanded s) := by
    simp only [landing, tickLanded, setTrc_trc, show (loadTaken s (tickDriven s)).ramp = rampNext s from tickDriven_ramp s,
      Bool.and_eq_true, decide_eq_true_eq]
    split <;> rfl
  have ends (u : State) (driven : u = s.setTrc (loadTaken s (tickDriven s))) :
      tractionEnd s.trc true false false ((landing u).setTrc (tickState (landing u).trc)) =
        tractionEnd s.trc true false false (s.setTrc (ticked s)) := by
    rw [driven, landed]
    rfl
  rw [rampTick, if_pos moves]
  exact ends _ (workOutLoad_setTrc s (tickDriven s))

/-! ### A fall or rise of the cap, and a back-EMF result (R79, R82) -/

/-- TRC as a new cap leaves it: a duty above the new bound is set to it. -/
def capTaken (s : State) (dcap : Nat) : Trc :=
  if min 1023 dcap < s.trc.duty then loadTaken s { s.trc with dcap := dcap, duty := min 1023 dcap }
  else { s.trc with dcap := dcap }

theorem tractionCap_eq (s : State) (dcap : Nat) :
    tractionCap s dcap = tractionEnd s.trc false true (dcap < s.trc.dcap) (s.setTrc (capTaken s dcap)) := by
  have capped : (if min 1023 dcap < s.trc.duty then
        workOutLoad (s.setTrc { s.trc with dcap := dcap, duty := min 1023 dcap })
      else s.setTrc { s.trc with dcap := dcap }) = s.setTrc (capTaken s dcap) := by
    rw [workOutLoad_setTrc, capTaken]
    split <;> rfl
  exact congrArg (tractionEnd s.trc false true (dcap < s.trc.dcap)) capped

/-- TRC as a back-EMF result leaves it where the regulator runs. -/
def resultTaken (s : State) (raw : Nat) : Trc := loadTaken s { regulated s raw with outstanding := false }

theorem bemfResult_regulated {s : State} (raw : Nat) (state : s.trc.state = .running ∨ s.trc.state = .reversing)
    (on : s.regOn = true) : bemfResult s raw = tractionEnd s.trc false true false (s.setTrc (resultTaken s raw)) := by
  have runs : (underRegulation s.trc && s.regOn) = true := by simp [underRegulation, state, on]
  let answered := s.setTrc { s.trc with outstanding := false }
  have taken : regulated answered raw = { regulated s raw with outstanding := false } := by
    simp only [regulated]
    by_cases still : vint s.trc = 0
    · rw [if_pos still, if_pos (show vint answered.trc = 0 from still)]
      rfl
    · rw [if_neg still, if_neg (show vint answered.trc ≠ 0 from still)]
      rfl
  have eq : bemfResult s raw = tractionEnd s.trc false true false (workOutLoad (answered.setTrc (regulated answered raw))) :=
    if_pos runs
  rw [eq, taken]
  exact congrArg (tractionEnd s.trc false true false) (workOutLoad_setTrc s { regulated s raw with outstanding := false })

theorem bemfResult_measured {s : State} (raw : Nat)
    (other : s.trc.state ≠ .running ∧ s.trc.state ≠ .reversing ∨ s.regOn = false) :
    bemfResult s raw = s.setTrc { s.trc with
      outstanding := false, speed := if s.trc.ramp = 0 then s.trc.speed else measuredSpeed raw s.bemfScale } := by
  have stands : ¬(underRegulation s.trc && s.regOn) = true := by
    rcases other with ⟨running, reversing⟩ | off
    · simp [underRegulation, running, reversing]
    · simp [off]
  have eq : bemfResult s raw = if 0 < s.trc.ramp then
      s.setTrc { s.trc with outstanding := false, speed := measuredSpeed raw s.bemfScale }
    else s.setTrc { s.trc with outstanding := false } := if_neg stands
  rw [eq]
  by_cases still : s.trc.ramp = 0
  · simp [still]
  · simp [still, Nat.pos_of_ne_zero still]

end Sys2Proof.Laws
end

section
/-!
SUPPORT. The changes that an event makes of TRC before its end (chapter 5), and each of the laws of traction through every one of
them.
-/
namespace Sys2Proof.Laws

open Sys2Proof.Machine

/-- What an event within the command `i` makes of TRC in `s`, before the event's end. -/
inductive TrcChange (i : Instr) (s : State) : Trc → Prop
  | retargeted : TrcChange i s (retargeted s)
  | driven (armed : s.trc.armed = true) (step : Nat) (d : Dir) :
      TrcChange i s { driveTaken s step d with state := driveState (driveTaken s step d) }
  | rearmed (owner : i = .drive ∨ i = .haltNormal) (d : Dir) :
      TrcChange i s { armedAnew s d with state := stoppedState (armedAnew s d) }
  | stated (d : Dir) : TrcChange i s { s.trc with stated := d }
  | disarmed : TrcChange i s (disarmed s.trc)
  | halted {x : Traction} (still : x = .emergency ∨ x = .lockout ∨ x = .stalled) : TrcChange i s (haltedIn s.trc x)
  | failsafe : TrcChange i s (failsafeEntered (Machine.disarmed s.trc))
  | tripped : TrcChange i s (tripEntered s.trc)
  | retried : TrcChange i s (retryEntered s.trc)
  | suspended : TrcChange i s { rampStopped s.trc with state := .suspended }
  | resumed : TrcChange i s { s.trc with state := if s.trc.armed && 0 < s.trc.target then .running else .idle }
  | capped (dcap : Nat) : TrcChange i s (capTaken s dcap)
  | regulated (raw : Nat) : TrcChange i s (resultTaken s raw)
  | ticked (tick : i = .rampTick) (moves : tickMoves s.trc.state = true) : TrcChange i s (ticked s)

/-! ### What the larger of these changes keep -/

@[simp] theorem idleOrRunning_kept (t : Trc) : (idleOrRunning t).step = t.step ∧ (idleOrRunning t).stated = t.stated ∧
    (idleOrRunning t).target = t.target ∧ (idleOrRunning t).ramp = t.ramp ∧ (idleOrRunning t).drive = t.drive ∧
    (idleOrRunning t).armed = t.armed ∧ (idleOrRunning t).integral = t.integral ∧ (idleOrRunning t).duty = t.duty ∧
    (idleOrRunning t).speed = t.speed ∧ (idleOrRunning t).load = t.load ∧ (idleOrRunning t).dcap = t.dcap := by
  simp only [idleOrRunning]
  (repeat' split) <;> simp

@[simp] theorem failsafeEntered_kept (t : Trc) : (failsafeEntered t).step = t.step ∧
    (failsafeEntered t).stated = t.stated ∧ (failsafeEntered t).target = t.target ∧ (failsafeEntered t).ramp = t.ramp ∧
    (failsafeEntered t).drive = t.drive ∧ (failsafeEntered t).armed = t.armed ∧ (failsafeEntered t).dcap = t.dcap := by
  simp only [failsafeEntered]
  split
  case isTrue still => exact ⟨rfl, rfl, rfl, still.symm, rfl, rfl, rfl⟩
  case isFalse => exact ⟨rfl, rfl, rfl, rfl, rfl, rfl, rfl⟩

@[simp] theorem retryEntered_kept (t : Trc) : (retryEntered t).step = t.step ∧ (retryEntered t).stated = t.stated ∧
    (retryEntered t).target = t.target ∧ (retryEntered t).ramp = t.ramp ∧ (retryEntered t).drive = t.drive ∧
    (retryEntered t).armed = t.armed ∧ (retryEntered t).dcap = t.dcap := by
  simp only [retryEntered]
  (repeat' split) <;> simp

@[simp] theorem capTaken_kept (s : State) (dcap : Nat) : (capTaken s dcap).step = s.trc.step ∧
    (capTaken s dcap).stated = s.trc.stated ∧ (capTaken s dcap).target = s.trc.target ∧
    (capTaken s dcap).ramp = s.trc.ramp ∧ (capTaken s dcap).drive = s.trc.drive ∧
    (capTaken s dcap).armed = s.trc.armed ∧ (capTaken s dcap).integral = s.trc.integral ∧
    (capTaken s dcap).speed = s.trc.speed ∧ (capTaken s dcap).state = s.trc.state ∧ (capTaken s dcap).dcap = dcap := by
  simp only [capTaken]
  split <;> simp [loadTaken]

@[simp] theorem regulated_kept (s : State) (raw : Nat) : (regulated s raw).step = s.trc.step ∧
    (regulated s raw).stated = s.trc.stated ∧ (regulated s raw).target = s.trc.target ∧
    (regulated s raw).ramp = s.trc.ramp ∧ (regulated s raw).drive = s.trc.drive ∧
    (regulated s raw).armed = s.trc.armed ∧ (regulated s raw).state = s.trc.state ∧
    (regulated s raw).dcap = s.trc.dcap ∧ (regulated s raw).speed = measuredSpeed raw s.bemfScale := by
  simp only [regulated]
  split <;> simp

@[simp] theorem tickState_kept (t : Trc) : (tickState t).step = t.step ∧ (tickState t).stated = t.stated ∧
    (tickState t).target = t.target ∧ (tickState t).ramp = t.ramp ∧ (tickState t).drive = t.drive ∧
    (tickState t).armed = t.armed ∧ (tickState t).integral = t.integral ∧ (tickState t).duty = t.duty ∧
    (tickState t).speed = t.speed ∧ (tickState t).load = t.load ∧ (tickState t).dcap = t.dcap := by
  simp only [tickState]
  (repeat' split) <;> simp

@[simp] theorem tickDriven_kept (s : State) : (tickDriven s).step = s.trc.step ∧ (tickDriven s).stated = s.trc.stated ∧
    (tickDriven s).target = s.trc.target ∧ (tickDriven s).ramp = rampNext s ∧ (tickDriven s).drive = s.trc.drive ∧
    (tickDriven s).armed = s.trc.armed ∧ (tickDriven s).speed = s.trc.speed ∧ (tickDriven s).state = s.trc.state ∧
    (tickDriven s).dcap = s.trc.dcap := by
  simp only [tickDriven, tickDuty]
  (repeat' split) <;> simp [openLoop]

@[simp] theorem tickLanded_kept (s : State) : (tickLanded s).step = s.trc.step ∧ (tickLanded s).stated = s.trc.stated ∧
    (tickLanded s).target = s.trc.target ∧ (tickLanded s).ramp = rampNext s ∧ (tickLanded s).drive = s.trc.drive ∧
    (tickLanded s).armed = s.trc.armed ∧ (tickLanded s).state = s.trc.state ∧ (tickLanded s).dcap = s.trc.dcap := by
  simp only [tickLanded]
  split
  case isTrue landed =>
    obtain ⟨zero, -⟩ := landed
    simp [rampStopped, loadTaken, zero]
  case isFalse => simp [loadTaken]

@[simp] theorem resultTaken_kept (s : State) (raw : Nat) : (resultTaken s raw).step = s.trc.step ∧
    (resultTaken s raw).stated = s.trc.stated ∧ (resultTaken s raw).target = s.trc.target ∧
    (resultTaken s raw).ramp = s.trc.ramp ∧ (resultTaken s raw).drive = s.trc.drive ∧
    (resultTaken s raw).armed = s.trc.armed ∧ (resultTaken s raw).state = s.trc.state ∧
    (resultTaken s raw).dcap = s.trc.dcap ∧ (resultTaken s raw).speed = measuredSpeed raw s.bemfScale := by
  simp [resultTaken, loadTaken]

@[simp] theorem ticked_kept (s : State) : (ticked s).step = s.trc.step ∧ (ticked s).stated = s.trc.stated ∧
    (ticked s).target = s.trc.target ∧ (ticked s).ramp = rampNext s ∧ (ticked s).drive = s.trc.drive ∧
    (ticked s).armed = s.trc.armed ∧ (ticked s).dcap = s.trc.dcap := by
  simp [ticked]

section
variable {i : Instr} {s : State} {t : Trc}

/-! ### The latch (R85, Table 5-3) -/

/-- R85 and Table 5-3 of TRC alone; that the drive direction follows at V 0 is seen to at the end of an event. -/
structure LatchLaw (t : Trc) : Prop where
  disarmed : t.armed = false → t.step = 0 ∧ t.target = 0
  still : holdsStill t.state → t.ramp = 0
  halted : t.state = .failsafe ∨ t.state = .emergency ∨ t.state = .lockout ∨ t.state = .stalled → t.armed = false

/-- A state that neither holds V at 0 nor asks for the latch to be clear. -/
abbrev freeState (x : Traction) : Prop := x = .idle ∨ x = .running ∨ x = .reversing ∨ x = .tripped

theorem LatchLaw.of_kept {s t : Trc} (law : LatchLaw s) (armed : t.armed = s.armed)
    (zero : s.armed = false → t.step = 0 ∧ t.target = 0) (ramp : holdsStill s.state → s.ramp = 0 → t.ramp = 0)
    (state : t.state = s.state ∨ freeState t.state) : LatchLaw t := by
  have free (h : freeState t.state) : ¬holdsStill t.state ∧
      ¬(t.state = .failsafe ∨ t.state = .emergency ∨ t.state = .lockout ∨ t.state = .stalled) := by
    rcases h with h | h | h | h <;> simp [holdsStill, h]
  refine ⟨fun off => zero (armed ▸ off), fun still => ?_, fun halted => ?_⟩
  · rcases state with same | moving
    · exact ramp (same ▸ still) (law.still (same ▸ still))
    · exact absurd still (free moving).1
  · rcases state with same | moving
    · exact armed.trans (law.halted (same ▸ halted))
    · exact absurd halted (free moving).2

theorem LatchLaw.of_disarmed {t : Trc} (armed : t.armed = false) (step : t.step = 0) (target : t.target = 0)
    (still : holdsStill t.state → t.ramp = 0) : LatchLaw t :=
  ⟨fun _ => ⟨step, target⟩, still, fun _ => armed⟩

theorem targetFor_zero (s : State) : targetFor s 0 = 0 := by simp [targetFor, tableTarget]

theorem driveState_free (t : Trc) : driveState t = t.state ∨ freeState (driveState t) := by
  cases state : t.state <;> simp only [driveState, state, true_or]
  all_goals (repeat' split) <;> simp [freeState]

theorem retargetedState_free (s : State) : retargetedState s = s.trc.state ∨ freeState (retargetedState s) := by
  cases state : s.trc.state <;> simp only [retargetedState, state, true_or]
  all_goals split <;> simp [freeState]

theorem tickState_free (t : Trc) : (tickState t).state = t.state ∨ freeState (tickState t).state := by
  cases state : t.state <;> simp only [tickState, state]
  all_goals (repeat' split) <;> simp [freeState, state]

theorem ticked_free (s : State) : (ticked s).state = s.trc.state ∨ freeState (ticked s).state := by
  simpa [ticked] using tickState_free (tickLanded s)

theorem idleOrRunning_free (t : Trc) (h : freeState t.state) : freeState (idleOrRunning t).state := by
  rcases h with h | h | h | h <;> simp only [idleOrRunning, h, freeState]
  all_goals (repeat' split) <;> simp_all

/-- Re-arming leaves no state that asks for the latch to be clear; SUSPENDED stays, with V at 0. -/
theorem stoppedState_free (t : Trc) : stoppedState t = .suspended ∧ t.state = .suspended ∨ freeState (stoppedState t) := by
  cases state : t.state <;> simp only [stoppedState, rearmState, state]
  all_goals (repeat' split) <;> simp_all [freeState]

theorem failsafeEntered_state (t : Trc) : (failsafeEntered t).state = .idle ∨ (failsafeEntered t).state = .failsafe := by
  simp only [failsafeEntered]
  split <;> simp

/-- A retry leaves TRIPPED for a state that asks for nothing, or, disarmed, for FAILSAFE. -/
theorem retryEntered_state (t : Trc) :
    freeState (retryEntered t).state ∨ (retryEntered t).state = .failsafe ∧ t.armed = false := by
  simp only [retryEntered]
  split
  case isTrue off => exact (failsafeEntered_state t).imp .inl fun failsafe => ⟨failsafe, by simpa using off⟩
  case isFalse =>
    split
    · exact .inl (.inr (.inr (.inl rfl)))
    · exact .inl (idleOrRunning_free _ (.inr (.inl rfl)))

theorem LatchLaw.change (law : LatchLaw s.trc) (change : TrcChange i s t) : LatchLaw t := by
  have disarmed := law.disarmed
  have keep (_ : holdsStill s.trc.state) (zero : s.trc.ramp = 0) : s.trc.ramp = 0 := zero
  cases change
  case retargeted =>
    rw [retargeted_eq]
    refine law.of_kept rfl (fun off => ?_) keep (retargetedState_free s)
    obtain ⟨step, -⟩ := disarmed off
    exact ⟨step, by simp [step, targetFor_zero]⟩
  case driven armed step d => exact law.of_kept rfl (fun off => by simp [armed] at off) keep (driveState_free _)
  case rearmed d =>
    rcases stoppedState_free (armedAnew s d) with ⟨state, was⟩ | free
    · exact ⟨nofun, fun _ => law.still (.inr (.inr (.inr was))), fun halted => by simp [state] at halted⟩
    · have fresh : LatchLaw { armedAnew s d with state := .idle } := ⟨nofun, nofun, nofun⟩
      exact fresh.of_kept rfl nofun nofun (.inr free)
  case stated d => exact law.of_kept rfl disarmed keep (.inl rfl)
  case disarmed => exact .of_disarmed rfl rfl rfl law.still
  case halted => exact .of_disarmed rfl rfl rfl fun _ => rfl
  case failsafe =>
    refine .of_disarmed (by simp [Machine.disarmed]) (by simp [Machine.disarmed]) (by simp [Machine.disarmed]) ?_
    rcases failsafeEntered_state (Machine.disarmed s.trc) with state | state <;> rw [state] <;> nofun
  case tripped => exact law.of_kept rfl disarmed keep (.inr (.inr (.inr (.inr rfl))))
  case retried =>
    rcases retryEntered_state s.trc with free | ⟨failsafe, off⟩
    · exact law.of_kept (by simp) (by simpa using disarmed) (by simp) (.inr free)
    · obtain ⟨step, target⟩ := disarmed off
      exact .of_disarmed (by simp [off]) (by simp [step]) (by simp [target]) (by rw [failsafe]; nofun)
  case suspended => exact ⟨disarmed, fun _ => rfl, nofun⟩
  case resumed =>
    refine law.of_kept rfl disarmed keep (.inr ?_)
    dsimp only
    split
    · exact .inr (.inl rfl)
    · exact .inl rfl
  case capped => exact law.of_kept (by simp) (by simpa using disarmed) (by simp) (.inl (by simp))
  case regulated raw => exact law.of_kept (by simp) (by simpa using disarmed) (by simp) (.inl (by simp))
  case ticked tick moves =>
    refine law.of_kept (by simp) (by simpa using disarmed) (fun still => ?_) (ticked_free s)
    rcases still with h | h | h | h <;> simp [tickMoves, h] at moves

end
end Sys2Proof.Laws
end

section
/-!
SUPPORT. The ranges, the ramp value, the drive direction and the latch through every change that an event makes of TRC.
-/
namespace Sys2Proof.Laws

open Sys2Proof.Machine

section
variable {i : Instr} {s : State} {t : Trc}

/-! ### The ranges of duty, integral, speed, load and step (R79, R82, R83, R85) -/

/-- The duty, integral, speed, load and step of TRC keep to their ranges. -/
structure DutyLaw (t : Trc) : Prop where
  duty : t.duty ≤ dutyBound t
  integral : t.integral ≤ 261888
  speed : t.speed ≤ 1023
  load : t.load ≤ 255
  step : t.step ≤ 240

theorem dutySafe_iff (s : State) : DutySafe s ↔ DutyLaw s.trc :=
  ⟨fun ⟨duty, integral, speed, load, step⟩ => ⟨duty, integral, speed, load, step⟩,
    fun ⟨duty, integral, speed, load, step⟩ => ⟨duty, integral, speed, load, step⟩⟩

/-- A change that leaves these values alone, but for a step in its range. -/
theorem DutyLaw.of_kept {s t : Trc} (law : DutyLaw s) (duty : t.duty = s.duty) (dcap : t.dcap = s.dcap)
    (integral : t.integral = s.integral ∨ t.integral = 0) (speed : t.speed = s.speed) (load : t.load = s.load)
    (step : t.step ≤ 240) : DutyLaw t where
  duty := by simpa only [dutyBound, duty, dcap] using law.duty
  integral := by rcases integral with same | zero <;> simp only [*, law.integral, Nat.zero_le]
  speed := speed ▸ law.speed
  load := load ▸ law.load
  step := step

theorem loadOf_le (s : State) (t : Trc) : loadOf s t ≤ 255 := by
  simp only [loadOf]
  split <;> omega

theorem DutyLaw.loadTaken (law : DutyLaw t) (s : State) : DutyLaw (loadTaken s t) :=
  { law with load := loadOf_le s t }

theorem DutyLaw.rampStopped (law : DutyLaw t) : DutyLaw (rampStopped t) :=
  ⟨Nat.zero_le _, Nat.zero_le _, Nat.zero_le _, Nat.zero_le _, law.step⟩

theorem DutyLaw.disarmed (law : DutyLaw t) : DutyLaw (disarmed t) := { law with step := Nat.zero_le _ }

theorem DutyLaw.inState (law : DutyLaw t) (x : Traction) : DutyLaw { t with state := x } := { law with }

theorem DutyLaw.openLoop (law : DutyLaw t) : DutyLaw (openLoop t) :=
  { law with duty := Nat.min_le_right _ _, integral := Nat.zero_le _ }

theorem DutyLaw.failsafeEntered (law : DutyLaw t) : DutyLaw (failsafeEntered t) := by
  simp only [Machine.failsafeEntered]
  split
  · exact law.rampStopped.inState .idle
  · exact { law.openLoop with load := Nat.zero_le _ }

theorem DutyLaw.idleOrRunning (law : DutyLaw t) : DutyLaw (idleOrRunning t) :=
  law.of_kept (by simp) (by simp) (.inl (by simp)) (by simp) (by simp) (by simpa using law.step)

theorem DutyLaw.retryEntered (law : DutyLaw t) : DutyLaw (retryEntered t) := by
  simp only [Machine.retryEntered]
  (repeat' split)
  · exact law.failsafeEntered
  · exact law.inState .reversing
  · exact (law.inState .running).idleOrRunning

theorem DutyLaw.capTaken (law : DutyLaw s.trc) (dcap : Nat) : DutyLaw (capTaken s dcap) := by
  simp only [Laws.capTaken]
  split
  case isTrue =>
    have lowered : DutyLaw { s.trc with dcap := dcap, duty := min 1023 dcap } := { law with duty := Nat.le_refl _ }
    exact lowered.loadTaken s
  case isFalse below => exact { law with duty := Nat.not_lt.mp below }

theorem clampInt_le (x : Int) (n : Nat) : clampInt x 0 n ≤ n := by
  have := clampInt_eq x n
  omega

theorem integralNext_le {i : Nat} (range : i ≤ 261888) (bound ki : Nat) (e p : Int) :
    integralNext i bound ki e p ≤ 261888 := by
  simp only [integralNext]
  split
  · exact range
  · exact clampInt_le _ 261888

theorem DutyLaw.regulated (law : DutyLaw s.trc) (raw : Nat) : DutyLaw (regulated s raw) := by
  have speed : measuredSpeed raw s.bemfScale ≤ 1023 := Nat.min_le_left _ _
  simp only [Machine.regulated]
  split
  · exact ⟨Nat.zero_le _, Nat.zero_le _, speed, law.load, law.step⟩
  · exact ⟨clampInt_le _ _, integralNext_le law.integral _ _ _ _, speed, law.load, law.step⟩

theorem DutyLaw.resultTaken (law : DutyLaw s.trc) (raw : Nat) : DutyLaw (resultTaken s raw) := by
  have answered : DutyLaw { Machine.regulated s raw with outstanding := false } := { law.regulated raw with }
  exact answered.loadTaken s

theorem DutyLaw.tickDriven (law : DutyLaw s.trc) : DutyLaw (tickDriven s) := by
  have moved : DutyLaw { s.trc with ramp := rampNext s } := { law with }
  simp only [Laws.tickDriven, tickDuty]
  (repeat' split)
  · exact { moved.openLoop with duty := Nat.zero_le _, integral := Nat.zero_le _ }
  · exact moved.openLoop
  · exact { moved with duty := Nat.zero_le _, integral := Nat.zero_le _ }
  · exact moved

theorem DutyLaw.ticked (law : DutyLaw s.trc) : DutyLaw (ticked s) := by
  have landed : DutyLaw (tickLanded s) := by
    simp only [tickLanded]
    split
    · exact (law.tickDriven.loadTaken s).rampStopped
    · exact law.tickDriven.loadTaken s
  exact landed.of_kept (by simp [Laws.ticked]) (by simp [Laws.ticked]) (.inl (by simp [Laws.ticked]))
    (by simp [Laws.ticked]) (by simp [Laws.ticked]) (by simpa using law.step)

theorem DutyLaw.change (law : DutyLaw s.trc) (change : TrcChange i s t) : DutyLaw t := by
  cases change
  case retargeted =>
    rw [retargeted_eq]
    exact { law with }
  case driven => exact { law with step := Nat.min_le_left _ _ }
  case rearmed =>
    refine law.of_kept rfl rfl ?_ rfl rfl (Nat.zero_le _)
    simp only [armedAnew]
    split <;> simp
  case stated => exact { law with }
  case disarmed => exact law.disarmed
  case halted => exact law.rampStopped.disarmed.inState _
  case failsafe => exact law.disarmed.failsafeEntered
  case tripped => exact ⟨Nat.zero_le _, Nat.zero_le _, law.speed, Nat.zero_le _, law.step⟩
  case retried => exact law.retryEntered
  case suspended => exact law.rampStopped.inState .suspended
  case resumed => exact law.inState _
  case capped dcap => exact law.capTaken dcap
  case regulated raw => exact law.resultTaken raw
  case ticked => exact law.ticked

/-! ### The target and the ramp value (R72, R74, R85) -/

theorem rampMoved_le (v goal rise fall : Nat) (land : Bool) : rampMoved v goal rise fall land ≤ max v goal := by
  simp only [rampMoved]
  (repeat' split) <;> omega

/-- V rises only toward a goal above it, and only in IDLE and RUNNING. -/
theorem rampNext_le (s : State) : rampNext s ≤ max s.trc.ramp (64 * s.trc.target) := by
  simp only [rampNext]
  split
  case h_1 | h_2 => exact rampMoved_le ..
  case h_3 | h_4 => exact (rampMoved_le ..).trans (by omega)
  case h_5 => exact Nat.le_max_left _ _

/-- V after a change: where it was, at 0, or moved by a tick. -/
theorem TrcChange.ramp (change : TrcChange i s t) :
    t.ramp = s.trc.ramp ∨ t.ramp = 0 ∨ i = .rampTick ∧ t.ramp = rampNext s := by
  cases change
  case ticked tick moves => exact .inr (.inr ⟨tick, by simp⟩)
  case halted | suspended => exact .inr (.inl rfl)
  case retargeted => exact .inl (by rw [retargeted_eq])
  case failsafe => exact .inl (by simp [Machine.disarmed])
  all_goals exact .inl (by simp [driveTaken, armedAnew, Machine.disarmed, tripEntered])

/-- T after a change: what it was, 0, or worked out afresh. -/
theorem TrcChange.target (change : TrcChange i s t) :
    t.target = s.trc.target ∨ t.target = 0 ∨ ∃ n, t.target = targetFor s n := by
  cases change
  case retargeted => exact .inr (.inr ⟨s.trc.step, by rw [retargeted_eq]⟩)
  case driven step d _ => exact .inr (.inr ⟨_, rfl⟩)
  case rearmed | disarmed | halted => exact .inr (.inl rfl)
  case failsafe => exact .inr (.inl (by simp [Machine.disarmed]))
  case suspended | tripped => exact .inl rfl
  all_goals exact .inl (by simp)

theorem targetFor_le (s : State) (n : Nat) : targetFor s n ≤ tableTarget s.tbs.active.speed n := by
  simp only [targetFor]
  split <;> omega

/-- T and V keep to their ranges where the speed table gives no target beyond it. -/
theorem TrcChange.range (change : TrcChange i s t) (bounded : ∀ n, tableTarget s.tbs.active.speed n ≤ 1023)
    (target : s.trc.target ≤ 1023) (ramp : s.trc.ramp ≤ 65472) : t.target ≤ 1023 ∧ t.ramp ≤ 65472 := by
  have moved := rampNext_le s
  refine ⟨?_, by rcases change.ramp with h | h | ⟨-, h⟩ <;> omega⟩
  rcases change.target with h | h | ⟨n, h⟩
  · omega
  · omega
  · exact h ▸ (targetFor_le s n).trans (bounded n)

/-! ### The drive direction, the latch and the cap (R76, R85, R87) -/

/-- The drive direction is changed by the end of an event alone. -/
theorem TrcChange.drive (change : TrcChange i s t) : t.drive = s.trc.drive := by
  cases change
  case retargeted => rw [retargeted_eq]
  case failsafe => simp [Machine.disarmed]
  all_goals simp [driveTaken, armedAnew, Machine.disarmed, tripEntered, haltedIn, rampStopped]

/-- Only re-arming sets the latch. -/
theorem TrcChange.armed (change : TrcChange i s t) (on : t.armed = true) :
    s.trc.armed = true ∨ i = .drive ∨ i = .haltNormal := by
  cases change
  case rearmed owner _ => exact .inr owner
  case retargeted => exact .inl (by simpa [retargeted_eq] using on)
  case disarmed | halted | failsafe => simp [Machine.disarmed, haltedIn] at on
  all_goals exact .inl (by simpa [driveTaken, tripEntered, rampStopped] using on)

end
end Sys2Proof.Laws
end

section
/-!
SUPPORT. The operations on TRC and MBR by which every command reaches its next state, and the laws of traction through each of
them (R74, R76, R82, R84, R85, R102).
-/
namespace Sys2Proof.Laws

open Sys2Proof.Machine

/-! ### The end of an event, as TRC and as MBR see it -/

/-- TRC after an event in `s` which has brought it to `t`. -/
theorem tractionEnd_trc (s : State) (t : Trc) (tick work atOnce : Bool) :
    ∃ p o, (tractionEnd s.trc tick work atOnce (s.setTrc t)).trc =
      { endedBy tick work s t with published := p, outstanding := o } := by
  obtain ⟨trc, -⟩ := tractionEnd_spec s.trc tick work atOnce (s.setTrc t)
  rw [endedTrc_eq] at trc
  exact ⟨_, _, trc⟩

/-- MBR is handed the demand that TRC comes to, with MBR and MSQ as the event has left them. -/
theorem tractionEnd_handed (s : State) (t : Trc) (tick work atOnce : Bool) :
    ∃ v p, tractionEnd s.trc tick work atOnce (s.setTrc t) = handDemand v atOnce ∧ v.mbr = s.mbr ∧ v.msq = s.msq ∧
      v.tbs = s.tbs ∧ v.trc = { endedBy tick work s t with published := p } := by
  let u : State :=
    let changed := t.state ≠ s.trc.state
    let s := followDirection (s.setTrc t)
    let s := if tick || changed then testBemfTimer s else s
    if tick || work || changed then testStall s else s
  have trc : u.trc = endedBy tick work s t := endedTrc_eq tick work s t
  have kept : u.mbr = s.mbr ∧ u.msq = s.msq ∧ u.tbs = s.tbs := by
    simp only [u, followDirection_eq, testBemfTimer_eq, testStall_eq]
    (repeat' split) <;> simp
  obtain ⟨mbr, msq, tbs⟩ := kept
  have told : ∃ p, (publishTraction s.trc.drive u).trc = { endedBy tick work s t with published := p } := by
    rw [← trc]
    simp only [publishTraction]
    split
    · exact ⟨_, rfl⟩
    · exact ⟨_, rfl⟩
  obtain ⟨p, told⟩ := told
  exact ⟨publishTraction s.trc.drive u, p, rfl, by simp [mbr], by simp [msq], by simp [tbs], told⟩

/-! ### What the operations change -/

/-- TRC but for LOADED, the two flags, the two timers, the request and the publication. -/
def driving (t : Trc) : Trc :=
  { t with loaded := false, shunt := false, momentumOff := false, bemfTimer := none, outstanding := false,
           stallTimer := none, published := tractionConditionsReset }

theorem driving_kept {s t : Trc} (same : driving t = driving s) : t.step = s.step ∧ t.stated = s.stated ∧
    t.target = s.target ∧ t.ramp = s.ramp ∧ t.drive = s.drive ∧ t.armed = s.armed ∧ t.integral = s.integral ∧
    t.duty = s.duty ∧ t.speed = s.speed ∧ t.load = s.load ∧ t.state = s.state ∧ t.dcap = s.dcap := by
  simpa [driving] using same

/-- Of MBR, its bridge state, what it holds of the demand, and the duty applied. -/
def bridging (m : Mbr) : Bridge × (Mode × Dir × Nat) × Nat := (m.bridge, held m, m.applied)

/-- What of the part the laws of traction speak of. -/
abbrev tractionView (s : State) : Trc × (Bridge × (Mode × Dir × Nat) × Nat) × List Byte :=
  (driving s.trc, bridging s.mbr, s.tbs.active.speed)

/-- What a command `i` can do in one go to the part as the laws of traction see it. -/
inductive TractionOp (i : Instr) (s : State) : State → Prop
  | quiet {t : State} (same : tractionView t = tractionView s) : TractionOp i s t
  | event {t : Trc} (change : TrcChange i s t) (tick work atOnce : Bool) (cap : atOnce = true ∨ s.trc.dcap ≤ t.dcap) :
      TractionOp i s (tractionEnd s.trc tick work atOnce (s.setTrc t))
  | measured (speed : Nat) (range : speed ≤ 1023) (outstanding : Bool) :
      TractionOp i s (s.setTrc { s.trc with outstanding := outstanding, speed := speed })
  | opened {t : State} (trc : driving t.trc = driving s.trc) (table : t.tbs.active.speed = s.tbs.active.speed)
      (demand : held t.mbr = held s.mbr) (applied : t.mbr.applied = 0) : TractionOp i s t
  | driven {t : State} (trc : driving t.trc = driving s.trc) (table : t.tbs.active.speed = s.tbs.active.speed)
      (demand : held t.mbr = held s.mbr) (bridge : t.mbr.bridge = .drive) (applied : t.mbr.applied = s.mbr.demanded) :
      TractionOp i s t
  | table {t : State} (trc : t.trc = s.trc) (mbr : t.mbr = s.mbr) (bounded : ∀ n, tableTarget t.tbs.active.speed n ≤ 1023) :
      TractionOp i s t
  | reset {t : State} (trc : t.trc = trcReset) (mbr : t.mbr = mbrReset)
      (table : t.tbs.active.speed = s.tbs.active.speed) : TractionOp i s t

/-- What a command `i` can do by such operations one after another. -/
abbrev TractionReaches (i : Instr) : State → State → Prop := Relation.ReflTransGen (TractionOp i)

/-! ### The latch and the drive direction (R76, R85) -/

section
variable {i : Instr} {s t : State}

theorem latchSafe_iff (s : State) : LatchSafe s ↔ LatchLaw s.trc ∧ (s.trc.ramp = 0 → s.trc.drive = s.trc.stated) :=
  ⟨fun ⟨disarmed, still, halted, rest⟩ => ⟨⟨disarmed, still, halted⟩, rest⟩,
    fun ⟨⟨disarmed, still, halted⟩, rest⟩ => ⟨disarmed, still, halted, rest⟩⟩

theorem latchSafe_congr (same : driving t.trc = driving s.trc) (h : LatchSafe s) : LatchSafe t := by
  obtain ⟨step, stated, target, ramp, drive, armed, -, -, -, -, state, -⟩ := driving_kept same
  rw [LatchSafe, armed, step, target, state, ramp, drive, stated]
  exact h

theorem latchSafe_reset (trc : t.trc = trcReset) : LatchSafe t := by
  rw [LatchSafe, trc]
  decide

theorem latchSafe_op (op : TractionOp i s t) (h : LatchSafe s) : LatchSafe t := by
  cases op with
  | quiet same => exact latchSafe_congr (congrArg Prod.fst same) h
  | @event u change tick work atOnce =>
    obtain ⟨law, -⟩ := (latchSafe_iff s).mp h
    obtain ⟨disarmed, still, halted⟩ := law.change change
    obtain ⟨p, o, trc⟩ := tractionEnd_trc s u tick work atOnce
    rw [latchSafe_iff, trc]
    exact ⟨⟨disarmed, still, halted⟩, fun rest => if_pos rest⟩
  | measured => exact h
  | opened trc | driven trc => exact latchSafe_congr trc h
  | table trc =>
    rw [LatchSafe, trc]
    exact h
  | reset trc => exact latchSafe_reset trc

/-! ### The ranges (R74, R79, R82) -/

theorem dutySafe_congr (same : driving t.trc = driving s.trc) (h : DutySafe s) : DutySafe t := by
  obtain ⟨step, -, -, -, -, -, integral, duty, speed, load, -, dcap⟩ := driving_kept same
  rw [DutySafe, dutyBound, duty, dcap, integral, speed, load, step]
  exact h

theorem dutySafe_reset (trc : t.trc = trcReset) : DutySafe t := by
  rw [DutySafe, trc]
  decide

theorem dutySafe_op (op : TractionOp i s t) (h : DutySafe s) : DutySafe t := by
  cases op with
  | quiet same => exact dutySafe_congr (congrArg Prod.fst same) h
  | @event u change tick work atOnce =>
    obtain ⟨duty, integral, speed, load, step⟩ := ((dutySafe_iff s).mp h).change change
    obtain ⟨p, o, trc⟩ := tractionEnd_trc s u tick work atOnce
    rw [dutySafe_iff, trc]
    exact ⟨duty, integral, speed, load, step⟩
  | measured speed range =>
    obtain ⟨duty, integral, -, load, step⟩ := h
    exact ⟨duty, integral, range, load, step⟩
  | opened trc | driven trc => exact dutySafe_congr trc h
  | table trc =>
    rw [DutySafe, trc]
    exact h
  | reset trc => exact dutySafe_reset trc

/-- T and V keep to their ranges, and the speed table in force gives no target beyond its range. -/
structure RangeLaw (s : State) : Prop where
  target : s.trc.target ≤ 1023
  ramp : s.trc.ramp ≤ 65472
  bounded : ∀ n, tableTarget s.tbs.active.speed n ≤ 1023

theorem RangeLaw.congr (law : RangeLaw s) (trc : driving t.trc = driving s.trc)
    (table : t.tbs.active.speed = s.tbs.active.speed) : RangeLaw t := by
  obtain ⟨-, -, target, ramp, -⟩ := driving_kept trc
  exact ⟨target ▸ law.target, ramp ▸ law.ramp, table ▸ law.bounded⟩

theorem RangeLaw.op (law : RangeLaw s) (op : TractionOp i s t) : RangeLaw t := by
  cases op with
  | quiet same => exact law.congr (congrArg Prod.fst same) (congrArg (fun view => view.2.2) same)
  | @event u change tick work atOnce =>
    obtain ⟨target, ramp⟩ := change.range law.bounded law.target law.ramp
    obtain ⟨p, o, trc⟩ := tractionEnd_trc s u tick work atOnce
    exact ⟨by rw [trc]; exact target, by rw [trc]; exact ramp, by simpa using law.bounded⟩
  | measured => exact ⟨law.target, law.ramp, law.bounded⟩
  | opened trc table | driven trc table => exact law.congr trc table
  | table trc _ bounded => exact ⟨trc ▸ law.target, trc ▸ law.ramp, bounded⟩
  | reset trc _ table => exact ⟨by rw [trc]; decide, by rw [trc]; decide, table ▸ law.bounded⟩

/-! ### The demand that MBR holds (R84) -/

theorem demandSafe_congr (trc : driving t.trc = driving s.trc) (demand : held t.mbr = held s.mbr) (h : DemandSafe s) :
    DemandSafe t := by
  obtain ⟨-, -, -, -, drive, -, -, duty, -, -, state, -⟩ := driving_kept trc
  simp only [held, Prod.mk.injEq] at demand
  obtain ⟨mode, turned, demanded⟩ := demand
  rw [DemandSafe, demandedDuty, mode, turned, demanded, state, duty, drive]
  exact h

theorem demandSafe_op (op : TractionOp i s t) (h : DemandSafe s) : DemandSafe t := by
  cases op with
  | quiet same => exact demandSafe_congr (congrArg Prod.fst same) (congrArg (fun view => view.2.1.2.1) same) h
  | @event u change tick work atOnce =>
    obtain ⟨-, -, demand, -⟩ := tractionEnd_spec s.trc tick work atOnce (s.setTrc u)
    exact demand
  | measured => exact h
  | opened trc _ demand | driven trc _ demand => exact demandSafe_congr trc demand h
  | table trc mbr =>
    rw [DemandSafe, trc, mbr]
    exact h
  | reset trc mbr =>
    rw [DemandSafe, trc, mbr]
    decide

/-! ### The ramp value, the drive direction and the latch between commands (R74, R76, R87) -/

/-- Without a tick V does not rise, and the drive direction turns only in an event that leaves V at 0. -/
structure NoRise (s t : State) : Prop where
  ramp : t.trc.ramp ≤ s.trc.ramp
  drive : t.trc.drive = s.trc.drive ∨ t.trc.ramp = 0

theorem NoRise.trans {s t u : State} (h : NoRise s t) (h' : NoRise t u) : NoRise s u where
  ramp := h'.ramp.trans h.ramp
  drive := by
    rcases h'.drive with same | rest
    · exact h.drive.imp same.trans fun (rest : t.trc.ramp = 0) => Nat.eq_zero_of_le_zero (rest ▸ h'.ramp)
    · exact .inr rest

theorem NoRise.of_driving (same : driving t.trc = driving s.trc) : NoRise s t := by
  obtain ⟨-, -, -, ramp, drive, -⟩ := driving_kept same
  exact ⟨ramp.le, .inl drive⟩

/-- The drive direction at the end of an event. -/
theorem endedBy_drive {u : Trc} (change : TrcChange i s u) (tick work : Bool) :
    (endedBy tick work s u).drive = s.trc.drive ∨ (endedBy tick work s u).ramp = 0 := by
  by_cases rest : u.ramp = 0
  · exact .inr rest
  · exact .inl ((if_neg rest).trans change.drive)

theorem noRise_op (op : TractionOp i s t) (other : i ≠ .rampTick) : NoRise s t := by
  cases op with
  | quiet same => exact .of_driving (congrArg Prod.fst same)
  | @event u change tick work atOnce =>
    obtain ⟨p, o, trc⟩ := tractionEnd_trc s u tick work atOnce
    refine ⟨?_, by rw [trc]; exact endedBy_drive change tick work⟩
    rw [trc]
    rcases change.ramp with same | zero | ⟨tick, -⟩
    · exact same.le
    · exact zero.trans_le (Nat.zero_le _)
    · exact absurd tick other
  | measured => exact ⟨Nat.le_refl _, .inl rfl⟩
  | opened trc | driven trc => exact .of_driving trc
  | table trc => exact ⟨by rw [trc], .inl (by rw [trc])⟩
  | reset trc => exact ⟨by rw [trc]; exact Nat.zero_le _, .inr (by rw [trc]; rfl)⟩

theorem armed_congr (same : driving t.trc = driving s.trc) (on : t.trc.armed = true) : s.trc.armed = true := by
  obtain ⟨-, -, -, -, -, armed, -⟩ := driving_kept same
  exact armed ▸ on

theorem armed_op (op : TractionOp i s t) (on : t.trc.armed = true) : s.trc.armed = true ∨ i = .drive ∨ i = .haltNormal := by
  cases op with
  | quiet same => exact .inl (armed_congr (congrArg Prod.fst same) on)
  | @event u change tick work atOnce =>
    obtain ⟨p, o, trc⟩ := tractionEnd_trc s u tick work atOnce
    exact change.armed (by simpa [trc, endedBy] using on)
  | measured => exact .inl on
  | opened trc | driven trc => exact .inl (armed_congr trc on)
  | table trc => exact .inl (trc ▸ on)
  | reset trc => simp [trc, trcReset] at on

/-! ### The duty applied (R82, R102) -/

/-- A bridge that does not drive, or that is not to drive, has no duty applied, and the one applied keeps to a cap. -/
structure AppliedLaw (m : Mbr) (cap : Nat) : Prop where
  closed : m.bridge ≠ .drive → m.applied = 0
  rest : m.mode ≠ .drive → m.applied = 0
  bound : m.applied ≤ cap

theorem AppliedLaw.of_zero {m : Mbr} {cap : Nat} (applied : m.applied = 0) : AppliedLaw m cap :=
  ⟨fun _ => applied, fun _ => applied, applied ▸ Nat.zero_le _⟩

theorem AppliedLaw.congr {m n : Mbr} {cap : Nat} (law : AppliedLaw m cap) (same : bridging n = bridging m) :
    AppliedLaw n cap := by
  simp only [bridging, held, Prod.mk.injEq] at same
  obtain ⟨bridge, ⟨mode, -⟩, applied⟩ := same
  exact ⟨fun h => applied ▸ law.closed (bridge ▸ h), fun h => applied ▸ law.rest (mode ▸ h), applied ▸ law.bound⟩

@[simp] theorem abandonGap_bridging (s : State) : bridging (abandonGap s).mbr = bridging s.mbr := by
  simp only [abandonGap]
  split <;> rfl

theorem bridgeEmergency_applied (s : State) : (bridgeEmergency s).mbr.applied = 0 := by
  simp only [bridgeEmergency]
  split <;> rfl

/-- A change of mode applies no duty but the demanded one of a bridge that starts, or leaves all as it was. -/
theorem takeMode_applied (s : State) (m : Mode) :
    (takeMode s m).mbr.applied = 0 ∨
      m = .drive ∧ (takeMode s m).mbr.bridge = .drive ∧ (takeMode s m).mbr.applied = s.mbr.demanded ∨
      takeMode s m = s ∧ (m = .drive ∨ s.mbr.bridge ≠ .drive) := by
  cases m <;> cases bridge : s.mbr.bridge <;> simp only [takeMode, bridge]
  case off.off | emergencyStop.brake => exact .inr (.inr ⟨trivial, .inr nofun⟩)
  case drive.drive | drive.gap | drive.tripped => exact .inr (.inr ⟨trivial, .inl trivial⟩)
  case drive.off | drive.brake => exact .inr (.inl ⟨trivial, rfl, rfl⟩)
  case emergencyStop.off | emergencyStop.drive | emergencyStop.gap | emergencyStop.tripped =>
    exact .inl (bridgeEmergency_applied _)
  all_goals exact .inl rfl

/-- A turn applies the demanded duty of a bridge that drives or was in a gap, and leaves all others as they were. -/
theorem takeDirection_applied (s : State) :
    (takeDirection s).mbr.bridge = .drive ∧ (takeDirection s).mbr.applied = s.mbr.demanded ∨
      takeDirection s = s ∧ s.mbr.bridge ≠ .drive := by
  have demand : (abandonGap s).mbr.demanded = s.mbr.demanded := congrArg (fun h => h.2.2) (abandonGap_held s)
  have drives : s.mbr.bridge = (abandonGap s).mbr.bridge := congrArg Prod.fst (abandonGap_bridging s).symm
  cases bridge : s.mbr.bridge <;> simp only [takeDirection, bridge]
  case drive => exact .inl ⟨drives.symm.trans bridge, demand⟩
  case gap => exact .inl ⟨rfl, demand⟩
  all_goals exact .inr ⟨trivial, nofun⟩

/-! ### A demand, by what of it differs (R103, R104) -/

/-- The demand kept, before MBR acts on it. -/
def demandKept (s : State) (m : Mode) (d : Dir) (duty : Nat) : State :=
  s.setMbr { s.mbr with mode := m, drive := d, demanded := duty }

section
variable {s : State} {m : Mode} {d : Dir} (duty : Nat) (atOnce : Bool)

theorem takeDemand_mode (d : Dir) (taken : m ≠ s.mbr.mode ∨ m = .emergencyStop) :
    takeDemand s m d duty atOnce = takeMode (demandKept s m d duty) m :=
  if_pos (by simpa using taken)

theorem takeDemand_turn (mode : m = s.mbr.mode) (other : m ≠ .emergencyStop) (turned : d ≠ s.mbr.drive) :
    takeDemand s m d duty atOnce = takeDirection (demandKept s m d duty) :=
  (if_neg (by simpa using ⟨mode, other⟩)).trans (if_pos turned)

theorem takeDemand_duty (mode : m = s.mbr.mode) (other : m ≠ .emergencyStop) (straight : d = s.mbr.drive) :
    takeDemand s m d duty atOnce =
      if atOnce then takeDutyAtOnce (demandKept s m d duty) else demandKept s m d duty :=
  (if_neg (by simpa using ⟨mode, other⟩)).trans (if_neg (not_not.mpr straight))

end

/-- The duty applied after a demand: none; the demanded one in DRIVE; or the old one where the mode stays, and where a demand
that is not at once is all that can leave it in DRIVE. -/
theorem takeDemand_applied {s : State} {cap : Nat} (law : AppliedLaw s.mbr cap) (m : Mode) (d : Dir) (duty : Nat)
    (atOnce : Bool) :
    let t := takeDemand s m d duty atOnce
    t.mbr.applied = 0 ∨ t.mbr.bridge = .drive ∧ t.mbr.applied = duty ∨
      atOnce = false ∧ m = s.mbr.mode ∧ t.mbr.bridge = s.mbr.bridge ∧ t.mbr.applied = s.mbr.applied := by
  intro t
  let v := demandKept s m d duty
  by_cases taken : m ≠ s.mbr.mode ∨ m = .emergencyStop
  case pos =>
    rw [show t = takeMode v m from takeDemand_mode duty atOnce d taken]
    rcases takeMode_applied v m with zero | ⟨-, bridge, applied⟩ | ⟨same, still⟩
    · exact .inl zero
    · exact .inr (.inl ⟨bridge, applied⟩)
    · refine .inl ?_
      rw [same]
      rcases still with rfl | closed
      · exact law.rest fun was => by simp [was] at taken
      · exact law.closed closed
  case neg =>
    obtain ⟨mode, other⟩ := not_or.mp taken
    have mode : m = s.mbr.mode := not_not.mp mode
    by_cases turned : d ≠ s.mbr.drive
    · rw [show t = takeDirection v from takeDemand_turn duty atOnce mode other turned]
      rcases takeDirection_applied v with drives | ⟨same, closed⟩
      · exact .inr (.inl drives)
      · exact .inl (by rw [same]; exact law.closed closed)
    · rw [show t = if atOnce then takeDutyAtOnce v else v from takeDemand_duty duty atOnce mode other (not_not.mp turned)]
      split
      · simp only [takeDutyAtOnce]
        split
        case isTrue drives => exact .inr (.inl ⟨drives, rfl⟩)
        case isFalse closed => exact .inl (law.closed closed)
      case isFalse next => exact .inr (.inr ⟨by simpa using next, mode, rfl, rfl⟩)

theorem demandedDuty_le (t : Trc) : demandedDuty t ≤ t.duty := by
  simp only [demandedDuty]
  split <;> omega

theorem demandedDuty_zero {t : Trc} (mode : demandedMode t.state ≠ .drive) : demandedDuty t = 0 := by
  cases state : t.state <;> simp_all [demandedDuty, demandedMode]

/-- The law through the handing of a demand, where the duty keeps to the cap now in force, which has not fallen unless the
demand is at once. -/
theorem AppliedLaw.handDemand {v : State} {cap : Nat} (law : AppliedLaw v.mbr cap) {atOnce : Bool}
    (duty : v.trc.duty ≤ v.trc.dcap) (fall : atOnce = true ∨ cap ≤ v.trc.dcap) :
    AppliedLaw (handDemand v atOnce).mbr v.trc.dcap := by
  have within := (demandedDuty_le v.trc).trans duty
  by_cases hands : (demandChanged v || (atOnce && demandedMode v.trc.state = .drive)) = true
  case pos =>
    have eq : Machine.handDemand v atOnce = _ := if_pos hands
    have taken := takeDemand_applied law (demandedMode v.trc.state) v.trc.drive (demandedDuty v.trc) atOnce
    have holds := takeDemand_held v (demandedMode v.trc.state) v.trc.drive (demandedDuty v.trc) atOnce
    rw [eq]
    generalize takeDemand v (demandedMode v.trc.state) v.trc.drive (demandedDuty v.trc) atOnce = t at taken holds ⊢
    simp only [held, Prod.mk.injEq] at holds
    obtain ⟨mode, -⟩ := holds
    rcases taken with zero | ⟨bridge, applied⟩ | ⟨next, same, bridge, applied⟩
    · exact .of_zero zero
    · refine ⟨fun h => absurd bridge h, fun h => ?_, applied ▸ within⟩
      rw [applied, demandedDuty_zero (mode ▸ h)]
    · refine ⟨fun h => applied ▸ law.closed (bridge ▸ h), fun h => applied ▸ law.rest (same ▸ mode ▸ h), ?_⟩
      exact applied ▸ law.bound.trans (fall.resolve_left (by simp [next]))
  case neg =>
    have eq : Machine.handDemand v atOnce = v := if_neg hands
    simp only [Bool.or_eq_true, Bool.and_eq_true, decide_eq_true_eq, not_or, not_and] at hands
    obtain ⟨unchanged, other⟩ := hands
    simp only [demandChanged, Bool.or_eq_true, decide_eq_true_eq, not_or, not_not] at unchanged
    obtain ⟨⟨mode, -⟩, -⟩ := unchanged
    rw [eq]
    refine ⟨law.closed, law.rest, ?_⟩
    rcases fall with once | still
    · exact law.rest (mode ▸ other once) ▸ Nat.zero_le _
    · exact law.bound.trans still

/-- The law of the applied duty passes through an operation where the duties keep to their ranges and MBR holds TRC's
demand. -/
theorem appliedLaw_op (op : TractionOp i s t) (duties : DutySafe s) (demand : DemandSafe s)
    (law : AppliedLaw s.mbr s.trc.dcap) : AppliedLaw t.mbr t.trc.dcap := by
  have kept (trc : driving t.trc = driving s.trc) : t.trc.dcap = s.trc.dcap := by
    obtain ⟨-, -, -, -, -, -, -, -, -, -, -, dcap⟩ := driving_kept trc
    exact dcap
  cases op with
  | quiet same =>
    rw [kept (congrArg Prod.fst same)]
    exact law.congr (congrArg (fun view => view.2.1) same)
  | @event u change tick work atOnce cap =>
    obtain ⟨duty, -⟩ := ((dutySafe_iff s).mp duties).change change
    obtain ⟨p, o, trc⟩ := tractionEnd_trc s u tick work atOnce
    obtain ⟨v, q, eq, mbr, -, -, vtrc⟩ := tractionEnd_handed s u tick work atOnce
    have dcap : v.trc.dcap = u.dcap := by rw [vtrc]; rfl
    have capped : v.trc.duty ≤ v.trc.dcap := by
      rw [vtrc]
      exact duty.trans (Nat.min_le_right _ _)
    have final : (tractionEnd s.trc tick work atOnce (s.setTrc u)).trc.dcap = v.trc.dcap := by rw [trc, vtrc]
    rw [final, eq]
    exact AppliedLaw.handDemand (mbr ▸ law) capped (dcap ▸ cap)
  | measured => exact law
  | opened _ _ _ applied => exact .of_zero applied
  | driven trc _ held bridge applied =>
    obtain ⟨duty, -⟩ := duties
    obtain ⟨mode, -, demanded⟩ := demand
    simp only [Laws.held, Prod.mk.injEq] at held
    obtain ⟨sameMode, -⟩ := held
    rw [kept trc]
    refine ⟨fun h => absurd bridge h, fun h => ?_, ?_⟩
    · rw [applied, demanded, demandedDuty_zero (mode ▸ sameMode ▸ h)]
    · rw [applied, demanded]
      exact (demandedDuty_le s.trc).trans (duty.trans (Nat.min_le_right _ _))
  | table trc mbr =>
    rw [trc, mbr]
    exact law
  | reset _ mbr => exact .of_zero (by rw [mbr]; rfl)

end

end Sys2Proof.Laws
end

section
/-!
SUPPORT. Every operation of the part as TRC and MBR see it, one lemma an operation: it reaches its next state by the operations of
traction alone.
-/
namespace Sys2Proof.Laws

open Sys2Proof.Machine

/-! ### The events at TRC -/

section
variable {i : Instr}

theorem reaches_view {s t : State} (same : tractionView t = tractionView s) : TractionReaches i s t := .single (.quiet same)

theorem reaches_after {s u t : State} (h : TractionReaches i u t) (same : tractionView u = tractionView s) :
    TractionReaches i s t :=
  (reaches_view same).trans h

/-- An event that leaves the cap as it is. -/
theorem reaches_event {s : State} {t : Trc} (change : TrcChange i s t) (dcap : t.dcap = s.trc.dcap) (tick work : Bool) :
    TractionReaches i s (tractionEnd s.trc tick work false (s.setTrc t)) :=
  .single (.event change tick work false (.inr dcap.ge))

variable (s : State)

theorem reaches_retarget : TractionReaches i s (retarget s) :=
  reaches_event .retargeted (by rw [retargeted_eq]) false false

theorem reaches_tractionShunt (on : Bool) : TractionReaches i s (tractionShunt s on) :=
  reaches_after (reaches_retarget _) rfl

theorem reaches_driveArmed (armed : s.trc.armed = true) (step : Nat) (d : Dir) :
    TractionReaches i s (driveArmed s step d) :=
  reaches_event (.driven armed step d) rfl false false

theorem rearm_eq (d : Dir) : rearm s d = tractionEnd s.trc false false false
    (s.setTrc { armedAnew s d with state := stoppedState (armedAnew s d) }) := by
  have taken : (if s.trc.state = .failsafe then
        { s.trc with armed := true, step := 0, target := 0, stated := d, integral := 0 }
      else { s.trc with armed := true, step := 0, target := 0, stated := d }) = armedAnew s d := by
    simp only [armedAnew]
    split <;> rfl
  have idle (t : Trc) (h : t.target = 0) : idleOrRunning { t with state := rearmState t } =
      { t with state := stoppedState t } := by
    cases state : rearmState t <;> simp [idleOrRunning, stoppedState, state, h]
    split <;> rfl
  simp only [rearm]
  rw [taken, idle _ rfl]

theorem reaches_rearm (owner : i = .drive ∨ i = .haltNormal) (d : Dir) : TractionReaches i s (rearm s d) := by
  rw [rearm_eq]
  exact reaches_event (.rearmed owner d) rfl false false

theorem reaches_driveCommand (owner : i = .drive ∨ i = .haltNormal) (step : Nat) (d : Dir) :
    TractionReaches i s (driveCommand s step d) := by
  simp only [driveCommand]
  split
  case isTrue armed => exact reaches_driveArmed s armed step d
  case isFalse =>
    split
    · exact reaches_rearm s owner d
    · exact .refl

theorem reaches_emergencyHalt : TractionReaches i s (emergencyHalt s) := by
  have halts : TractionReaches i s (tractionEnd s.trc false false false (s.setTrc (haltedIn s.trc .emergency))) :=
    reaches_event (.halted (.inl rfl)) rfl false false
  cases state : s.trc.state <;> simp only [emergencyHalt, state]
  case suspended => exact reaches_event .disarmed rfl false false
  case emergency | lockout | stalled => exact .refl
  all_goals exact halts

theorem reaches_statedInverted : TractionReaches i s (statedInverted s) := by
  simp only [statedInverted]
  split
  case isTrue armed => exact reaches_driveArmed s armed _ _
  case isFalse => exact reaches_event (.stated (dirInverted s.trc.stated)) rfl false false

theorem reaches_lossNotice : TractionReaches i s (lossNotice s) := by
  have stops : TractionReaches i s (tractionEnd s.trc false false false (s.setTrc (disarmed s.trc))) :=
    reaches_event .disarmed rfl false false
  have failsafe : TractionReaches i s
      (tractionEnd s.trc false false false (s.setTrc (failsafeEntered (disarmed s.trc)))) :=
    reaches_event .failsafe (by simp [disarmed]) false false
  cases state : s.trc.state <;> simp only [lossNotice, state]
  case running | reversing => exact failsafe
  case idle | tripped | suspended => exact stops
  all_goals exact .refl

theorem reaches_tripNotice : TractionReaches i s (tripNotice s) := by
  simp only [tripNotice]
  split
  · exact reaches_event .tripped rfl false false
  · exact .refl

theorem reaches_retryNotice : TractionReaches i s (retryNotice s) := by
  simp only [retryNotice]
  split
  · exact reaches_event .retried (by simp) false false
  · exact .refl

theorem reaches_lockoutNotice : TractionReaches i s (lockoutNotice s) := by
  simp only [lockoutNotice]
  split
  · exact reaches_event .disarmed rfl false false
  · exact reaches_event (.halted (.inr (.inl rfl))) rfl false false

theorem reaches_stallExpiry : TractionReaches i s (stallExpiry s) := by
  simp only [stallExpiry]
  split
  · exact reaches_event (.halted (.inr (.inr rfl))) rfl false false
  · exact .refl

theorem reaches_tractionPower (p : PowerState) : TractionReaches i s (tractionPower s p) := by
  cases p <;> simp only [tractionPower]
  case init | hold => exact reaches_event .suspended rfl false false
  case coast => exact .refl
  case normal =>
    split
    · exact reaches_event .resumed rfl false false
    · exact .refl

theorem reaches_tractionCap (dcap : Nat) : TractionReaches i s (tractionCap s dcap) := by
  rw [tractionCap_eq]
  refine .single (.event (.capped dcap) false true _ ?_)
  simp only [decide_eq_true_eq, capTaken_kept]
  exact Nat.lt_or_ge dcap s.trc.dcap

theorem reaches_rampTick : TractionReaches .rampTick s (rampTick s) := by
  cases moves : tickMoves s.trc.state
  · rw [rampTick, if_neg (by simp [moves])]
  · rw [rampTick_eq moves]
    exact reaches_event (.ticked rfl moves) (by simp) true false

theorem reaches_bemfResult (raw : Nat) : TractionReaches i s (bemfResult s raw) := by
  by_cases runs : (s.trc.state = .running ∨ s.trc.state = .reversing) ∧ s.regOn = true
  case pos =>
    obtain ⟨state, on⟩ := runs
    rw [bemfResult_regulated raw state on]
    exact reaches_event (.regulated raw) (by simp) false true
  case neg =>
    rw [not_and_or, not_or, Bool.not_eq_true] at runs
    rw [bemfResult_measured raw runs]
    by_cases rest : s.trc.ramp = 0
    · exact reaches_view (by simp [rest, driving])
    · simp only [rest, if_false]
      exact .single (.measured _ (Nat.min_le_left _ _) false)

/-! ### The events at MBR -/

@[simp] theorem abandonGap_driving : driving (abandonGap s).trc = driving s.trc := by
  simp only [abandonGap]
  split <;> rfl

@[simp] theorem gapOffer_driving : driving (gapOffer s).trc = driving s.trc := by
  simp only [gapOffer]
  (repeat' split) <;> rfl

@[simp] theorem gapOffer_bridging : bridging (gapOffer s).mbr = bridging s.mbr := by
  simp only [gapOffer]
  (repeat' split) <;> rfl

theorem reaches_bridgeTripped : TractionReaches i s (bridgeTripped s) := by
  have opened := abandonGap_bridging (bridgeStop s .tripped)
  simp only [bridging, Prod.mk.injEq] at opened
  obtain ⟨-, demand, applied⟩ := opened
  exact .single (.opened (abandonGap_driving _) (by simp [bridgeTripped]) demand applied)

theorem reaches_bridgeStart : TractionReaches i s (bridgeStart s) := .single (.driven rfl rfl rfl rfl rfl)

theorem reaches_lockoutOpens : TractionReaches i s (lockoutOpens s) := by
  simp only [lockoutOpens]
  split
  · exact .single (.opened rfl rfl rfl rfl)
  · exact .refl

theorem reaches_periodEnd : TractionReaches i s (periodEnd s) := by
  simp only [periodEnd]
  split
  case isTrue drives =>
    split
    · exact .single (.opened rfl rfl rfl rfl)
    · exact .single (.driven rfl rfl rfl drives rfl)
  case isFalse => exact .refl

theorem reaches_gapEnd : TractionReaches i s (gapEnd s) := by
  simp only [gapEnd]
  split
  · exact .single (.driven rfl rfl rfl rfl rfl)
  · exact .refl

theorem reaches_settleExpiry : TractionReaches i s (settleExpiry s) := by
  simp only [settleExpiry]
  split
  · exact reaches_view rfl
  · exact .refl

theorem reaches_bemfExpiry : TractionReaches i s (bemfExpiry s) := by
  simp only [bemfExpiry]
  split
  · split
    · exact reaches_view rfl
    · refine reaches_after (reaches_view (s := s.setTrc { s.trc with
        bemfTimer := some (s.bemfPeriod * 1000), outstanding := true }) ?_) rfl
      simp
  · exact .refl

theorem reaches_tripFreeExpiry : TractionReaches i s (tripFreeExpiry s) := by
  simp only [tripFreeExpiry]
  split
  · exact reaches_view rfl
  · exact .refl

theorem reaches_retryExpiry : TractionReaches i s (retryExpiry s) := by
  simp only [retryExpiry]
  split
  · exact reaches_after ((reaches_bridgeStart _).trans (reaches_retryNotice _)) rfl
  · exact .refl

theorem reaches_judgeOverload : TractionReaches i s (judgeOverload s) := by
  simp only [judgeOverload]
  split
  · exact reaches_after ((reaches_lockoutOpens _).trans (reaches_lockoutNotice _)) rfl
  · split <;> exact reaches_view rfl

theorem reaches_judgeTrip (code : Nat) : TractionReaches i s (judgeTrip s code) := by
  simp only [judgeTrip]
  split
  · exact reaches_after ((reaches_lockoutOpens _).trans (reaches_lockoutNotice _)) rfl
  · exact reaches_after (reaches_judgeOverload _) rfl

theorem reaches_tripMeasure : TractionReaches i s (tripMeasure s) := by
  simp only [tripMeasure]
  split
  · exact reaches_view rfl
  · exact reaches_after (reaches_judgeOverload _) rfl

theorem reaches_overcurrent (milliamps : Nat) : TractionReaches i s (overcurrent s milliamps) := by
  simp only [overcurrent]
  split
  · exact (reaches_bridgeTripped s).trans ((reaches_tripNotice _).trans (reaches_tripMeasure _))
  · exact .refl

/-! ### The power path (R82, R96, R97, R182 to R189) -/

theorem reaches_powerEnd : TractionReaches i s (powerEnd s) := by
  have cap : TractionReaches i s (publishDcap s) := by
    simp only [publishDcap]
    split
    · exact .refl
    · exact reaches_after (reaches_tractionCap _ _) rfl
  exact cap.trans (reaches_view (by simp [powerEnd]))

theorem reaches_announce (p : PowerState) : TractionReaches i s (announce s p) :=
  (reaches_tractionPower s p).trans (reaches_view (by simp [announce]))

theorem reaches_publish (p : Publication) : TractionReaches i s (publish s p) := reaches_view rfl

theorem reaches_enterNormal : TractionReaches i s (enterNormal s) := by
  have entered (v : Ppm) : TractionReaches i s (announce (s.setPpm v) .normal) :=
    reaches_after (reaches_announce _ _) rfl
  simp only [enterNormal]
  split
  · exact (entered _).trans (reaches_publish _ _)
  · exact entered _

theorem reaches_enterCoast : TractionReaches i s (enterCoast s) := by
  have entered (v : Ppm) : TractionReaches i s (announce (bufferRequest (s.setPpm v)) .coast) :=
    reaches_after (reaches_announce _ _) rfl
  exact (entered _).trans (reaches_publish _ _)

theorem reaches_enterHold : TractionReaches i s (enterHold s) := by
  have entered (v : Ppm) : TractionReaches i s (announce (s.setPpm v) .hold) :=
    reaches_after (reaches_announce _ _) rfl
  exact (entered _).trans (reaches_publish _ _)

theorem reaches_supplyActive (x : Supply) : TractionReaches i s (supplyActive s x) := by
  have drawn (a : Active) : TractionReaches i s
      (s.setPpm { s.ppm with active := a, overTimer := none, underTimer := none }) := reaches_view rfl
  simp only [supplyActive]
  split
  · exact drawn _
  · exact (drawn _).trans (reaches_enterNormal _)

theorem reaches_bufferActive : TractionReaches i s (bufferActive s) := by
  have drawn (a : Active) : TractionReaches i s
      (s.setPpm { s.ppm with active := a, overTimer := none, underTimer := none }) := reaches_view rfl
  simp only [bufferActive]
  split
  · exact (drawn _).trans (reaches_enterCoast _)
  · exact drawn _

theorem reaches_setSupply (x : Supply) (v : SupplyState) : TractionReaches i s (setSupply s x v) :=
  reaches_view (by simp)

theorem reaches_supplyQualified (x : Supply) : TractionReaches i s (supplyQualified s x) := by
  have select (u : State) : TractionReaches i u (supplySelect u x) := by
    simp only [supplySelect]
    (repeat' split) <;> first
      | exact reaches_supplyActive u x
      | exact .refl
  exact (reaches_setSupply s x _).trans (select _)

theorem reaches_activeLost (x : Supply) : TractionReaches i s (activeLost s x) := by
  simp only [activeLost]
  split
  · exact reaches_supplyActive s _
  · exact reaches_bufferActive s

@[simp] theorem fastReturnRaise_bridging (x : Supply) : bridging (fastReturnRaise s x).mbr = bridging s.mbr := by
  simp only [fastReturnRaise]
  split
  · simp only [setSupply_keeps]
    rfl
  · rfl

theorem reaches_presenceEvent (was : Bool) (x : Supply) : TractionReaches i s (presenceEvent was x s) := by
  rcases presenceEvent_cases was x s with ⟨-, eq⟩ | ⟨-, -, eq⟩ | ⟨-, -, eq⟩ <;> rw [eq]
  · exact reaches_after (reaches_powerEnd (startQualifying s x)) (by simp)
  · have absent : TractionReaches i s (supplyAbsent s x) := reaches_setSupply s x _
    simp only [presenceLoss]
    refine Relation.ReflTransGen.trans ?_ (reaches_powerEnd _)
    split
    · exact absent.trans ((reaches_activeLost _ x).trans (reaches_view (by simp)))
    · exact absent

theorem reaches_settingsInstalled : TractionReaches i s (settingsInstalled s) := by
  have follows (u : State) (x : Supply) : TractionReaches i u (presenceFollows u x) :=
    (reaches_setSupply u x _).trans (reaches_presenceEvent _ _ x)
  exact (follows s .track).trans (follows _ .battery)

theorem reaches_qualificationExpiry (x : Supply) : TractionReaches i s (qualificationExpiry s x) := by
  simp only [qualificationExpiry]
  split
  · exact (reaches_supplyQualified s x).trans (reaches_powerEnd _)
  · exact .refl

theorem reaches_fastReturnResult (x : Supply) (code : Nat) : TractionReaches i s (fastReturnResult s x code) := by
  have heard (v : SupplyState) : TractionReaches i s (setSupply s x v) := reaches_setSupply s x v
  simp only [fastReturnResult]
  split
  · exact (heard _).trans (reaches_supplyQualified _ x)
  · exact heard _

theorem reaches_bufferReading (code : Nat) : TractionReaches i s (bufferReading s code) := by
  simp only [bufferReading]
  split
  · exact reaches_enterHold s
  · exact .refl

theorem reaches_powerReading (c : Channel) (source : Source) (code : Nat) :
    TractionReaches i s (powerReading s c source code) := by
  have fastReturn (x : Supply) : TractionReaches i s (if source = .inject then fastReturnResult s x code else s) := by
    split
    · exact reaches_fastReturnResult s x code
    · exact .refl
  cases c <;> simp only [powerReading]
  case trackV => exact (fastReturn .track).trans (reaches_powerEnd _)
  case batteryV => exact (fastReturn .battery).trans (reaches_powerEnd _)
  case bufferV => exact (reaches_bufferReading s code).trans (reaches_powerEnd _)
  case supplyI => exact reaches_after (reaches_powerEnd (currentReading s code)) (by simp)
  case boardT => exact reaches_after (reaches_powerEnd (boardReading s code)) rfl
  all_goals exact .refl

theorem reaches_conversionDone (code : BitVec 12) : TractionReaches i s (conversionDone s code) := by
  simp only [conversionDone]
  split
  · exact .refl
  next c _ =>
    split
    · exact reaches_view rfl
    · have read (q : Msq) : TractionReaches i s (gapReported ((senseRead s c.channel code).setMsq q) c) := by
        have sensed : TractionReaches i s ((senseRead s c.channel code).setMsq q) := by
          simp only [senseRead]
          split <;> exact reaches_view rfl
        simp only [gapReported]
        split
        · exact sensed.trans (reaches_gapEnd _)
        · exact sensed
      have delivered (u : State) (code : Nat) : TractionReaches i u (codeDelivered u c code) := by
        simp only [codeDelivered]
        split
        · exact reaches_judgeTrip u code
        · exact reaches_bemfResult u code
        · exact reaches_view (by simp)
        · exact reaches_powerReading u _ _ code
        · exact reaches_powerReading u _ _ code
      exact (read _).trans ((delivered _ _).trans (reaches_view rfl))

theorem reaches_coastExpiry : TractionReaches i s (coastExpiry s) := by
  simp only [coastExpiry]
  split
  · exact (reaches_enterHold s).trans (reaches_powerEnd _)
  · exact .refl

/-- The other timers of PPM. -/
theorem reaches_powerTimers : TractionReaches i s (bufferExpiry s) ∧ TractionReaches i s (overExpiry s) ∧
    TractionReaches i s (underExpiry s) := by
  have timed {u : State} (same : tractionView u = tractionView s) : TractionReaches i s (powerEnd u) :=
    (reaches_view same).trans (reaches_powerEnd u)
  simp only [bufferExpiry, overExpiry, underExpiry]
  refine ⟨?_, ?_, ?_⟩ <;> split <;> first
    | exact timed rfl
    | exact .refl

theorem reaches_lossExpiry : TractionReaches i s (lossExpiry s) := by
  have stopped : TractionReaches i s (signalSet (s.setDsp { s.dsp with lossTimer := none })) := by
    simp only [signalSet]
    split <;> exact reaches_view rfl
  simp only [lossExpiry]
  split
  · split
    · exact stopped.trans (reaches_lossNotice _)
    · exact stopped
  · exact .refl

end

end Sys2Proof.Laws
end

section
/-!
SUPPORT. What FNU, the frames and the tables bring about at TRC and MBR, and so every command but the release of a reset by the
operations of traction (R25, R51, R61, R65).
-/
namespace Sys2Proof.Laws

open Sys2Proof.Machine

/-! ### What FNU's acts keep -/

section
variable {P : State → Prop} (setFnu : ∀ s f, P s → P (s.setFnu f))
  (deliver : ∀ new e on s, P s → P (deliverEntry new e on s)) {s : State}

include deliver in
theorem deliverAll_induction (h : P s) (new : Outputs) (events : List (MapEntry × Bool)) : P (deliverAll new events s) := by
  induction events generalizing s with
  | nil => exact h
  | cons x rest ih => exact ih (deliver new x.1 x.2 s h)

include setFnu deliver

theorem evaluate_induction (h : P s) : P (evaluate s) := by
  simp only [evaluate, walk_eq]
  exact setFnu _ _ (deliverAll_induction deliver h _ _)

theorem mapInstalled_induction (h : P s) (oldMap : List Byte) : P (mapInstalled s oldMap) := by
  simp only [mapInstalled, installWalk_eq]
  exact setFnu _ _ (deliverAll_induction deliver h _ _)

theorem functionsHanded_induction (h : P s) (group states low high : Nat) : P (functionsHanded s group states low high) := by
  simp only [functionsHanded]
  split
  · exact h
  · exact evaluate_induction setFnu deliver (setFnu _ _ h)

/-- What every delivery and every change of FNU's own keeps stands once FNU has taken what waits. -/
theorem fnuSettle_induction (h : P s) : P (fnuSettle s) := by
  suffices turns : ∀ n u, P u → P (fnuTake n u) from turns fnuTurns s h
  intro n
  induction n with
  | zero => exact fun _ h => h
  | succ n ih =>
    intro u hu
    rw [fnuTake]
    split
    · exact hu
    next p rest _ =>
      refine ih _ ?_
      have taken : P (u.setFnu { u.fnu with waiting := rest }) := setFnu _ _ hu
      simp only [takePublication]
      split
      · exact taken
      · exact evaluate_induction setFnu deliver (setFnu _ _ taken)

end

section
variable {i : Instr} (s : State)

theorem reaches_deliverEntry (new : Outputs) (e : MapEntry) (on : Bool) : TractionReaches i s (deliverEntry new e on s) := by
  rcases action : e.action with _ | (⟨n, d⟩ | c | _ | _ | _ | _) <;> simp only [deliverEntry, action]
  case none => exact .refl
  case some.lamp => exact reaches_view (by simp)
  case some.cue => split <;> exact reaches_view (by simp)
  case some.smoke => exact reaches_view (by simp)
  case some.mute => exact reaches_view (by simp)
  case some.shunt =>
    simp only [deliverShunt]
    split
    · exact .refl
    · exact reaches_after (reaches_tractionShunt _ _) rfl
  case some.momentumOff =>
    simp only [deliverMomentum]
    split
    · exact .refl
    · exact reaches_view rfl

/-- A change of FNU's own, after what has been reached. -/
theorem reaches_setFnu {t : State} (f : Fnu) (h : TractionReaches i s t) : TractionReaches i s (t.setFnu f) :=
  h.trans (reaches_view rfl)

theorem reaches_delivered {t : State} (new : Outputs) (e : MapEntry) (on : Bool) (h : TractionReaches i s t) :
    TractionReaches i s (deliverEntry new e on t) :=
  h.trans (reaches_deliverEntry t new e on)

theorem reaches_fnuSettle : TractionReaches i s (fnuSettle s) :=
  fnuSettle_induction (fun _ f => reaches_setFnu s f) (fun new e on _ => reaches_delivered s new e on) .refl

theorem reaches_functionsHanded (group states low high : Nat) :
    TractionReaches i s (functionsHanded s group states low high) :=
  functionsHanded_induction (fun _ f => reaches_setFnu s f) (fun new e on _ => reaches_delivered s new e on) .refl ..

theorem reaches_mapInstalled (oldMap : List Byte) : TractionReaches i s (mapInstalled s oldMap) :=
  mapInstalled_induction (fun _ f => reaches_setFnu s f) (fun new e on _ => reaches_delivered s new e on) .refl oldMap

/-! ### The frames (R20, R25 to R32) -/

theorem reaches_ownerHeard : TractionReaches i s (ownerHeard s) := by
  simp only [ownerHeard, signalCleared]
  split
  · exact reaches_after (reaches_fnuSettle _) rfl
  · exact reaches_view rfl

theorem reaches_frameTaken (f : Frame) (rest : List Frame) : TractionReaches i s (frameTaken s f rest) :=
  reaches_view (by simp)

theorem reaches_dispatch (row : Frame → Bool) {hand : State → Frame → Via → State}
    (handed : ∀ u f via, TractionReaches i u (hand u f via)) : TractionReaches i s (dispatch row hand s) := by
  rcases dispatch_cases row hand s with eq | ⟨f, rest, eq | ⟨via, eq⟩⟩ <;> rw [eq]
  · exact reaches_frameTaken s f rest
  · exact (reaches_frameTaken s f rest).trans (handed _ f via)

variable (f : Frame) (via : Via)

theorem reaches_handDrive : TractionReaches .drive s (handDrive s f via) := by
  simp only [handDrive]
  split
  · exact (reaches_ownerHeard s).trans (reaches_driveCommand _ (.inl rfl) _ _)
  · exact .refl

theorem reaches_handHaltNormal : TractionReaches .haltNormal s (handHaltNormal s f via) := by
  simp only [handHaltNormal, haltStated]
  split
  · exact (reaches_ownerHeard s).trans (reaches_driveCommand _ (.inr rfl) _ _)
  · exact .refl

theorem reaches_handHaltEmergency : TractionReaches i s (handHaltEmergency s f via) := by
  simp only [handHaltEmergency]
  split
  · exact (reaches_ownerHeard s).trans (reaches_emergencyHalt _)
  · exact reaches_emergencyHalt s

theorem reaches_handFunc : TractionReaches i s (handFunc s f via) := by
  cases via
  · exact .refl
  · exact reaches_functionsHanded s _ _ _ _

/-! ### The tables (R45, R71) -/

/-- A valid speed table gives no target beyond 1023; past the last step there is no anchor left to rise to (R39, R71). -/
theorem tableTarget_le {b : List Byte} (length : b.length ≤ 34) (valid : speedOffence b = none) (n : Nat) :
    tableTarget b n ≤ 1023 := by
  have anchored {k : Nat} (hk : k < 17) : anchor b k ≤ 1023 := ((speedOffence_eq_none_iff b).mp valid k hk).left
  have past {k : Nat} (hk : 17 ≤ k) : anchor b k = 0 := by
    simp [anchor, word16At, byteAt, show b.length ≤ 2 * k by omega,
      show b.length ≤ 2 * k + 1 by omega]
  rcases le_or_gt n 240 with low | high
  · have top : tableTarget b 240 = anchor b 16 := tableTarget_anchor b (k := 16) (by decide)
    exact (tableTarget_mono valid low le_rfl).trans (top ▸ anchored (by decide))
  · obtain ⟨k, r, hr, rfl⟩ : ∃ k r, r < 15 ∧ n = 15 * k + r := ⟨n / 15, n % 15, by omega, by omega⟩
    rw [tableTarget_line b hr (by omega), past (k := k + 1) (by omega)]
    rcases Nat.lt_or_ge k 17 with last | beyond
    · simpa using anchored last
    · simp [past beyond]

theorem reaches_addressInstalled (old : AddressEntry) : TractionReaches i s (addressInstalled s old) := by
  simp only [addressInstalled]
  (repeat' split)
  · exact reaches_view rfl
  · exact reaches_statedInverted s
  · exact .refl

/-- A committed table newly in force and its owner's act on it. -/
theorem reaches_tableInstalled {t : TableId} {b : List Byte} (length : b.length ≤ tableSize t)
    (valid : commitOffence t b = none) : TractionReaches i s (tableInstalled s t (commitContent t b)) := by
  have put (bytes : List Byte) (other : t ≠ .speed) : tractionView (activePut s t bytes) = tractionView s := by
    cases t <;> first
      | rfl
      | exact absurd rfl other
  cases t <;> simp only [tableInstalled, ownerInstalls]
  case settings => exact reaches_after (reaches_settingsInstalled _) (put _ nofun)
  case address => exact reaches_after (reaches_addressInstalled _ _) (put _ nofun)
  case map => exact reaches_after (reaches_mapInstalled _ _) (put _ nofun)
  case cues => exact reaches_view (Eq.trans (by simp) (put (commitContent .cues b) nofun))
  case lamps => exact reaches_view (Eq.trans (by simp) (put (commitContent .lamps b) nofun))
  case speed =>
    have short : b.length ≤ 34 := by simpa [tableSize] using length
    have bounded : ∀ n, tableTarget b n ≤ 1023 := tableTarget_le short valid
    have speed : (activePut s .speed b).tbs.active.speed = b := rfl
    have put : TractionOp i s (activePut s .speed b) := .table rfl rfl (by rwa [speed])
    exact (Relation.ReflTransGen.single put).trans (reaches_retarget _)

theorem reaches_handCommit : TractionReaches i s (handCommit s f via) := by
  have replied (u : State) (a : Answer) : TractionReaches i u (answered s u 8 a) := reaches_view rfl
  refine Relation.ReflTransGen.trans ?_ (replied _ _)
  rcases cfgCommit_cases s with eq | ⟨t, -, valid, eq⟩ <;> rw [eq]
  have begun (u : State) : TractionReaches i u (writeBegun u t) := reaches_view rfl
  exact (reaches_tableInstalled s (List.length_take_le _ _) valid).trans (begun _)

/-! ### The resets (R191) -/

theorem reaches_handReset (phase : Phase) : TractionReaches i s (handReset phase s f via) := by
  simp only [handReset]
  split
  · exact .single (.reset rfl rfl (by rw [resetTaken_tbs]; rfl))
  · exact reaches_view (by simp [answered, offerReply])

theorem reaches_restoreDone : TractionReaches i s (restoreDone s) := by
  simp only [restoreDone]
  split
  · exact reaches_view (by simp)
  · exact .refl
  · exact .refl

theorem reaches_nvCompleted : TractionReaches i s (nvCompleted s) := by
  simp only [nvCompleted]
  split
  · exact .refl
  · exact reaches_view rfl

/-- The status reply, with the clearing of the fault flags that are latched (R36). -/
theorem reaches_handStatus : TractionReaches i s (handStatus s f via) := by
  simp only [handStatus]
  split <;> exact reaches_view rfl

theorem reaches_handErase : TractionReaches i s (handErase s f via) := by
  simp only [handErase]
  split <;> exact reaches_view rfl

theorem reaches_handProgram : TractionReaches i s (handProgram s f via) := by
  simp only [handProgram]
  split <;> exact reaches_view rfl

theorem reaches_resetTaken (written : Nat) (phase : Phase) : TractionReaches i s (resetTaken s written phase) :=
  .single (.reset rfl rfl (by rw [resetTaken_tbs]; rfl))

/-- A request that leaves the active copies alone, and its reply. -/
theorem reaches_request {b : Tbs} (active : b.active = s.tbs.active) (old : State) (kind : Nat) (a : Answer) :
    TractionReaches i s (answered old (s.setTbs b) kind a) := reaches_view (by simp [answered, offerReply, active])

end

/-! ### Every command -/

section
variable {i : Instr} {f : State → State} {s t : State}

theorem reaches_live (ht : live f s = .next t) (h : TractionReaches i s (f s)) : TractionReaches i s t := by
  rcases live_cases ht with rfl | ⟨-, rfl⟩
  · exact .refl
  · exact h

theorem reaches_settled (ht : settled f s = .next t) (h : TractionReaches i s (f s)) : TractionReaches i s t := by
  rcases settled_cases ht with rfl | ⟨-, rfl⟩
  · exact .refl
  · exact h.trans (reaches_fnuSettle _)

end

/-- Every command but the release of a reset does to TRC and MBR only what the operations of traction do. -/
theorem exec_tractionReaches {i : Instr} {s t : State} (ht : exec i s = .next t) (other : i ≠ .resetRelease) :
    TractionReaches i s t := by
  cases i
  case resetRelease => exact absurd rfl other
  case drive => exact reaches_settled ht (reaches_dispatch s _ reaches_handDrive)
  case haltNormal => exact reaches_settled ht (reaches_dispatch s _ reaches_handHaltNormal)
  case haltEmergency => exact reaches_settled ht (reaches_dispatch s _ reaches_handHaltEmergency)
  case func => exact reaches_settled ht (reaches_dispatch s _ reaches_handFunc)
  case cfgCommit => exact reaches_settled ht (reaches_dispatch s _ reaches_handCommit)
  case replyFrameTaken => exact reaches_live ht (reaches_dispatch s _ fun _ _ _ => .refl)
  case cfgOpen => exact reaches_live ht (reaches_dispatch s _ fun u _ _ => reaches_request u (cfgOpen_active _ _) u 4 _)
  case cfgPoint => exact reaches_live ht (reaches_dispatch s _ fun u _ _ => reaches_request u (cfgPoint_active _ _) u 6 _)
  case cfgWrite => exact reaches_live ht (reaches_dispatch s _ fun u _ _ => reaches_request u (cfgWrite_active _ _) u 5 _)
  case cfgClose => exact reaches_live ht (reaches_dispatch s _ fun u _ _ => reaches_request u (cfgClose_active _) u 9 _)
  case cfgRead => exact reaches_live ht (reaches_dispatch s _ fun u _ _ => reaches_request u (b := u.tbs) rfl u 7 _)
  case statusReq => exact reaches_live ht (reaches_dispatch s _ reaches_handStatus)
  case sampleErase => exact reaches_live ht (reaches_dispatch s _ reaches_handErase)
  case sampleWrite => exact reaches_live ht (reaches_dispatch s _ reaches_handProgram)
  case resetNormal | resetFactory =>
    exact reaches_live ht (reaches_dispatch s _ fun u f via => reaches_handReset u f via _)
  case factoryRestoreComplete =>
    cases ht
    exact reaches_restoreDone s
  case powerOnReset | brownoutReset =>
    cases ht
    exact reaches_resetTaken s _ _
  case commandLossTimerExpiry => exact reaches_settled ht (reaches_lossExpiry s)
  case rampTick => exact reaches_settled ht (reaches_rampTick s)
  case stallTimerExpiry => exact reaches_settled ht (reaches_stallExpiry s)
  case overcurrentTrip => exact reaches_settled ht (reaches_overcurrent s _)
  case retryTimerExpiry => exact reaches_settled ht (reaches_retryExpiry s)
  case conversionComplete => exact reaches_settled ht (reaches_conversionDone s _)
  case qualificationTimerExpiry => exact reaches_settled ht (reaches_qualificationExpiry s _)
  case coastTimerExpiry => exact reaches_settled ht (reaches_coastExpiry s)
  case bufferRequestTimerExpiry =>
    obtain ⟨request, -, -⟩ := reaches_powerTimers s
    exact reaches_settled ht request
  case overTimerExpiry =>
    obtain ⟨-, overvoltage, -⟩ := reaches_powerTimers s
    exact reaches_settled ht overvoltage
  case underTimerExpiry =>
    obtain ⟨-, -, undervoltage⟩ := reaches_powerTimers s
    exact reaches_settled ht undervoltage
  case presenceGained v | presenceLost v =>
    refine Relation.ReflTransGen.trans ?_ (reaches_settled ht (reaches_presenceEvent _ _ _))
    split <;> first
      | exact reaches_setSupply s _ _
      | exact .refl
  case bemfTimerExpiry => exact reaches_live ht (reaches_bemfExpiry s)
  case pwmPeriodEnd => exact reaches_live ht (reaches_periodEnd s)
  case settleTimerExpiry => exact reaches_live ht (reaches_settleExpiry s)
  case tripFreeTimerExpiry => exact reaches_live ht (reaches_tripFreeExpiry s)
  case nvWriteComplete => exact reaches_live ht (reaches_nvCompleted s)
  case silenceWatchElapsed | virtualChuff =>
    refine reaches_live ht (reaches_view ?_)
    split <;> simp
  case characterReceived | brokenCharacter | interByteTimerExpiry | replyFrameSent | relayFrameSent | eraseComplete
      | programComplete | scanTimerExpiry | camTick | camEdge | outputSample | smokeRequestTimerExpiry | ageTimerExpiry
      | puffTimerExpiry | flickerAdvance | blinkTimerExpiry | softTimerExpiry =>
    exact reaches_live ht (reaches_view (by simp))

end Sys2Proof.Laws
end

section
/-!
PROOFS. Every step keeps the laws of traction, and V and the drive direction move only as they may (R74, R76, R79, R82, R84, R85,
R87, R88, R95, R96, R102).
-/
namespace Sys2Proof.Laws

open Sys2Proof.Machine

/-! ### Every command, and every step -/

/-- The part as the release of a reset leaves TRC and MBR. -/
structure Released (t : State) : Prop where
  trc : t.trc = { trcReset with state := .suspended }
  mbr : t.mbr = mbrReset

theorem released_released (s : State) (kind : ResetKind) : Released (released s kind) := by
  have eq := released_eq s kind
  dsimp only at eq
  exact ⟨by rw [eq], by rw [eq]⟩

/-- Every command does to TRC and MBR what the operations of traction do, or releases a reset. -/
theorem exec_traction {i : Instr} {s t : State} (ht : exec i s = .next t) : TractionReaches i s t ∨ Released t := by
  by_cases release : i = .resetRelease
  case pos =>
    subst release
    cases ht
    simp only [resetReleased]
    split
    · exact .inr (released_released s _)
    · exact .inl .refl
    · exact .inl .refl
  case neg => exact .inl (exec_tractionReaches ht release)

/-- So does every step; on an empty queue FNU takes what waits. -/
theorem step_traction {s t : State} (ht : step s = .next t) : (∃ i, TractionReaches i s t) ∨ Released t := by
  cases pending : s.pending with
  | nil =>
    simp only [step, pending] at ht
    cases ht
    exact .inl ⟨.camTick, reaches_fnuSettle s⟩
  | cons c rest =>
    simp only [step, pending] at ht
    rcases exec_traction ht with reaches | release
    · exact .inl ⟨c, reaches_after reaches rfl⟩
    · exact .inr release

section
variable {i : Instr} {s t : State}

/-- A law that each operation keeps is kept by all that they reach. -/
theorem reaches_keeps {P : State → Prop} (op : ∀ {u v}, TractionOp i u v → P u → P v) (reaches : TractionReaches i s t)
    (h : P s) : P t := by
  induction reaches with
  | refl => exact h
  | tail _ last ih => exact op last ih

theorem step_latchSafe (ht : step s = .next t) (h : LatchSafe s) : LatchSafe t := by
  rcases step_traction ht with ⟨i, reaches⟩ | ⟨trc, -⟩
  · exact reaches_keeps latchSafe_op reaches h
  · rw [LatchSafe, trc]
    decide

theorem step_dutySafe (ht : step s = .next t) (h : DutySafe s) : DutySafe t := by
  rcases step_traction ht with ⟨i, reaches⟩ | ⟨trc, -⟩
  · exact reaches_keeps dutySafe_op reaches h
  · rw [DutySafe, trc]
    decide

theorem step_demandSafe (ht : step s = .next t) (h : DemandSafe s) : DemandSafe t := by
  rcases step_traction ht with ⟨i, reaches⟩ | ⟨trc, mbr⟩
  · exact reaches_keeps demandSafe_op reaches h
  · rw [DemandSafe, trc, mbr]
    decide

theorem exec_demandSafe (ht : exec i s = .next t) (h : DemandSafe s) : DemandSafe t := by
  rcases exec_traction ht with reaches | ⟨trc, mbr⟩
  · exact reaches_keeps demandSafe_op reaches h
  · rw [DemandSafe, trc, mbr]
    decide

/-- The speed table of valid active copies gives no target beyond its range. -/
theorem ActiveSafe.tableTarget_le (active : ActiveSafe s) (n : Nat) : tableTarget s.tbs.active.speed n ≤ 1023 := by
  obtain ⟨length, valid⟩ := active .speed (by decide)
  exact Laws.tableTarget_le length.le (by simpa [contentValid, commitOffence] using valid) n

theorem step_rangeSafe (ht : step s = .next t) (active : ActiveSafe s) (h : RangeSafe s) : RangeSafe t := by
  obtain ⟨target, ramp⟩ := h
  rcases step_traction ht with ⟨i, reaches⟩ | ⟨trc, -⟩
  · obtain ⟨target, ramp, -⟩ : RangeLaw t :=
      reaches_keeps (fun op law => RangeLaw.op law op) reaches ⟨target, ramp, ActiveSafe.tableTarget_le active⟩
    exact ⟨target, ramp⟩
  · rw [RangeSafe, trc]
    decide

theorem appliedLaw_of_safe (bridge : BridgeSafe s) (applied : AppliedSafe s) :
    AppliedLaw s.mbr s.trc.dcap := by
  obtain ⟨off, emergency, -, -, closed, -⟩ := bridge
  obtain ⟨bound, -⟩ := applied
  refine ⟨closed, fun rest => closed fun drives => ?_, bound⟩
  cases mode : s.mbr.mode
  case off => exact absurd ((off mode).symm.trans drives) nofun
  case drive => exact rest mode
  case emergencyStop => rcases emergency mode with h | h <;> exact absurd (h.symm.trans drives) nofun

theorem demandedMode_still {x : Traction} (still : holdsStill x) : demandedMode x ≠ .drive := by
  rcases still with rfl | rfl | rfl | rfl <;> decide

theorem step_appliedSafe (ht : step s = .next t) (duties : DutySafe s) (demand : DemandSafe s) (bridge : BridgeSafe s)
    (applied : AppliedSafe s) : AppliedSafe t := by
  have law := appliedLaw_of_safe bridge applied
  obtain ⟨mode, -⟩ := step_demandSafe ht demand
  rcases step_traction ht with ⟨i, reaches⟩ | ⟨-, mbr⟩
  · have keeps {u v : State} (op : TractionOp i u v) :
        DutySafe u ∧ DemandSafe u ∧ AppliedLaw u.mbr u.trc.dcap → DutySafe v ∧ DemandSafe v ∧ AppliedLaw v.mbr v.trc.dcap :=
      fun ⟨duties, demand, law⟩ => ⟨dutySafe_op op duties, demandSafe_op op demand, appliedLaw_op op duties demand law⟩
    obtain ⟨-, -, -, rest, bound⟩ := reaches_keeps keeps reaches ⟨duties, demand, law⟩
    exact ⟨bound, fun still => rest (mode ▸ demandedMode_still still)⟩
  · rw [AppliedSafe, mbr]
    exact ⟨Nat.zero_le _, fun _ => rfl⟩

/-- V does not rise and the drive direction turns only at V 0, over all that is reached without a tick. -/
theorem reaches_noRise (reaches : TractionReaches i s t) (other : i ≠ .rampTick) : NoRise s t := by
  induction reaches with
  | refl => exact ⟨le_rfl, .inl rfl⟩
  | tail _ last ih => exact ih.trans (noRise_op last other)

theorem fnuSettle_noRise (s : State) : NoRise s (fnuSettle s) :=
  reaches_noRise (i := .camTick) (reaches_fnuSettle s) nofun

/-- A tick turns the drive direction only where it leaves V at 0, and raises V only toward a target above it. -/
theorem rampTick_rises (s : State) :
    (rampTick s).trc.ramp ≤ max s.trc.ramp (64 * s.trc.target) ∧
      ((rampTick s).trc.drive = s.trc.drive ∨ (rampTick s).trc.ramp = 0) := by
  cases moves : tickMoves s.trc.state
  · rw [rampTick, if_neg (by simp [moves])]
    exact ⟨Nat.le_max_left _ _, .inl rfl⟩
  · obtain ⟨p, o, trc⟩ := tractionEnd_trc s (ticked s) true false false
    rw [rampTick_eq moves, trc]
    exact ⟨by simpa [endedBy] using rampNext_le s, endedBy_drive (.ticked rfl moves) true false⟩

/-- Every command: V rises only by a tick, toward a target above it, and the drive direction turns only where V ends at 0. -/
theorem exec_rises (ht : exec i s = .next t) :
    (s.trc.ramp < t.trc.ramp → i = .rampTick ∧ s.trc.ramp < 64 * s.trc.target) ∧
      (t.trc.drive = s.trc.drive ∨ t.trc.ramp = 0) := by
  by_cases tick : i = .rampTick
  case pos =>
    subst tick
    rcases settled_cases ht with rfl | ⟨-, rfl⟩
    · exact ⟨fun rises => absurd rises (Nat.lt_irrefl _), .inl rfl⟩
    · obtain ⟨bound, turns⟩ := rampTick_rises s
      obtain ⟨settled, settledTurns⟩ := fnuSettle_noRise (rampTick s)
      refine ⟨fun rises => ⟨rfl, by omega⟩, ?_⟩
      rcases settledTurns with same | rest
      · exact turns.imp same.trans fun (rest : (rampTick s).trc.ramp = 0) => by omega
      · exact .inr rest
  case neg =>
    rcases exec_traction ht with reaches | ⟨trc, -⟩
    · obtain ⟨ramp, turns⟩ := reaches_noRise reaches tick
      exact ⟨fun rises => absurd rises (Nat.not_lt.mpr ramp), turns⟩
    · rw [trc]
      exact ⟨nofun, .inr rfl⟩

theorem exec_armed (ht : exec i s = .next t) (on : t.trc.armed = true) :
    s.trc.armed = true ∨ i = .drive ∨ i = .haltNormal := by
  rcases exec_traction ht with reaches | ⟨trc, -⟩
  · clear ht
    induction reaches with
    | refl => exact .inl on
    | tail _ last ih => exact (armed_op last on).elim ih .inr
  · simp [trc, trcReset] at on

end

/-- Settles O35: each of the laws passes through every operation of traction, and holds at the release of a reset. -/
theorem tractionStaysSound : Obligations.TractionStaysSound := by
  unfold Obligations.TractionStaysSound
  exact ⟨fun s t ht => ⟨step_latchSafe ht, step_dutySafe ht, step_rangeSafe ht, step_demandSafe ht⟩,
    fun s t duties demand bridge applied ht => step_appliedSafe ht duties demand bridge applied⟩

/-- Settles O34: V rises only toward a target above 0, which a disarmed latch does not have. -/
theorem rampRisesWhenArmedAndTurnsAtRest : Obligations.RampRisesWhenArmedAndTurnsAtRest := by
  unfold Obligations.RampRisesWhenArmedAndTurnsAtRest
  refine ⟨fun i s t ht => ⟨fun rises => ?_, fun off on => ?_⟩, fun i s t ht demand => ?_⟩
  · obtain ⟨tick, below⟩ := (exec_rises ht).1 rises
    refine ⟨tick, by omega, fun safe => ?_⟩
    obtain ⟨disarmed, -⟩ := safe
    cases armed : s.trc.armed
    · obtain ⟨-, target⟩ := disarmed armed
      omega
    · rfl
  · exact (exec_armed ht on).resolve_left (by simp [off])
  · obtain ⟨-, turns⟩ := exec_rises ht
    obtain ⟨-, now, -⟩ := exec_demandSafe ht demand
    obtain ⟨-, was, -⟩ := demand
    exact ⟨turns.resolve_left, fun turned => turns.resolve_left fun same => turned (now.trans (same.trans was.symm))⟩

end Sys2Proof.Laws
end

section
/-!
PROOFS. The ramp tick, value by value (R73 to R77, R94).
-/
namespace Sys2Proof.Laws

open Sys2Proof.Machine

section
variable (s : State)

/-! ### The value that a tick gives V (R74) -/

/-- The value of V after a tick, toward 64 times the effective target of the state. -/
theorem rampNext_eq (moves : tickMoves s.trc.state = true) :
    let goal := if s.trc.state = .idle ∨ s.trc.state = .running then 64 * s.trc.target else 0
    let land := s.trc.momentumOff = true ∧ s.trc.state ≠ .failsafe
    let fall := if s.trc.state = .failsafe then s.fsDecel else s.decel
    rampNext s = if s.trc.ramp < goal then (if land ∨ s.accel = 0 then goal else min goal (s.trc.ramp + s.accel))
      else if goal < s.trc.ramp then (if land ∨ fall = 0 then goal else max goal (s.trc.ramp - fall))
      else s.trc.ramp := by
  cases state : s.trc.state <;> simp only [tickMoves, state] at moves ⊢
  case idle | running => simp [rampNext, rampMoved, state]
  case reversing | failsafe => simp [rampNext, rampMoved, state]
  all_goals exact absurd moves (by decide)

/-! ### The duty and the integral (R75, R81) -/

/-- The state at a tick in which the open-loop duty is worked out (R81). -/
abbrev openLoopTicks (s : State) : Prop :=
  s.trc.state = .failsafe ∨ (s.trc.state = .running ∨ s.trc.state = .reversing) ∧ s.regOn = false

theorem openLoopTicks_iff : (s.trc.state = .failsafe || (underRegulation s.trc && !s.regOn)) = true ↔ openLoopTicks s := by
  simp [underRegulation]

/-- Of TRC a tick drives V, the duty and the integral alone. -/
theorem tickDriven_eq : tickDriven s =
    { s.trc with
      ramp := rampNext s
      duty := if rampNext s / 64 = 0 then 0
              else if openLoopTicks s then min (rampNext s / 64) (min 1023 s.trc.dcap) else s.trc.duty
      integral := if rampNext s / 64 = 0 then 0 else if openLoopTicks s then 0 else s.trc.integral } := by
  let moved : Trc := { s.trc with ramp := rampNext s }
  have driven : (if (s.trc.state = .failsafe || (underRegulation s.trc && !s.regOn)) = true then openLoop moved else moved) =
      { moved with duty := if openLoopTicks s then min (rampNext s / 64) (min 1023 s.trc.dcap) else s.trc.duty
                   integral := if openLoopTicks s then 0 else s.trc.integral } := by
    simp only [openLoopTicks_iff]
    split <;> rfl
  change (let t : Trc := if (s.trc.state = .failsafe || (underRegulation s.trc && !s.regOn)) = true then openLoop moved else moved
    if vint t = 0 then { t with duty := 0, integral := 0 } else t) = _
  rw [driven]
  by_cases rest : rampNext s / 64 = 0
  · simp only [rest, if_true]
    exact if_pos rest
  · simp only [rest, if_false]
    exact if_neg rest

/-! ### TRC as the tick leaves it before the end of its event (R75) -/

/-- Step 6 of R75 changes the state alone. -/
theorem tickState_eq (t : Trc) : tickState t = { t with state := (tickState t).state } := by
  simp only [tickState]
  (repeat' split) <;> rfl

/-- A tick that brings V to 0. -/
theorem ticked_landed (landed : rampNext s = 0 ∧ 0 < s.trc.ramp) : ticked s =
    { s.trc with ramp := 0, duty := 0, integral := 0, speed := 0, load := 0, loaded := false, bemfTimer := none,
                 stallTimer := none, state := (ticked s).state } := by
  have eq : tickLanded s = rampStopped (loadTaken s (tickDriven s)) := if_pos landed
  rw [ticked, tickState_eq, eq, tickDriven_eq]
  rfl

/-- Any other tick. -/
theorem ticked_moving (moving : ¬(rampNext s = 0 ∧ 0 < s.trc.ramp)) : ticked s =
    { loadTaken s (tickDriven s) with state := (ticked s).state } := by
  have eq : tickLanded s = loadTaken s (tickDriven s) := if_neg moving
  rw [ticked, tickState_eq, eq]

/-- The state after a tick, by what V comes to (R76, R77, R86, R90). -/
theorem ticked_state (moves : tickMoves s.trc.state = true) : (ticked s).state =
    if rampNext s = 0 then
      match s.trc.state with
      | .failsafe => .idle
      | .idle => .idle
      | _ => if s.trc.target = 0 then .idle else .running
    else s.trc.state := by
  obtain ⟨-, -, target, ramp, -, -, state, -⟩ := tickLanded_kept s
  simp only [ticked, tickState, target, ramp, state]
  by_cases rest : rampNext s = 0
  case neg => simp only [if_neg rest, state]
  case pos =>
    simp only [if_pos rest]
    cases was : s.trc.state <;> simp only [tickMoves, was] at moves ⊢
    case running => split <;> simp [was]
    case idle => exact state.trans was
    case emergency | tripped | lockout | stalled | suspended => exact absurd moves (by decide)

theorem ticked_flags : (ticked s).published = s.trc.published ∧ (ticked s).shunt = s.trc.shunt ∧
    (ticked s).momentumOff = s.trc.momentumOff ∧ (ticked s).outstanding = s.trc.outstanding := by
  by_cases landed : rampNext s = 0 ∧ 0 < s.trc.ramp
  · rw [ticked_landed s landed]
    exact ⟨rfl, rfl, rfl, rfl⟩
  · rw [ticked_moving s landed, tickDriven_eq]
    exact ⟨rfl, rfl, rfl, rfl⟩

/-- L after a tick that does not bring V to 0. -/
theorem loadOf_tickDriven : loadOf s (tickDriven s) =
    if s.regOn = true ∧ 0 < rampNext s / 64 then min 255 ((tickDriven s).duty - rampNext s / 64) else 0 := by
  simp only [loadOf, tickDriven_ramp]

/-- Below a whole speed unit nothing drives. -/
theorem ticked_rest (rest : rampNext s / 64 = 0) : (ticked s).duty = 0 ∧ (ticked s).integral = 0 ∧ (ticked s).load = 0 := by
  by_cases landed : rampNext s = 0 ∧ 0 < s.trc.ramp
  · rw [ticked_landed s landed]
    exact ⟨rfl, rfl, rfl⟩
  · rw [ticked_moving s landed]
    refine ⟨?_, ?_, (loadOf_tickDriven s).trans (if_neg (by omega))⟩ <;> simp [loadTaken, tickDriven_eq s, rest]

section
variable (moving : 0 < rampNext s / 64)
include moving

theorem ticked_duty : (ticked s).duty = (tickDriven s).duty ∧ (ticked s).integral = (tickDriven s).integral ∧
    (ticked s).load = if s.regOn then min 255 ((tickDriven s).duty - rampNext s / 64) else 0 := by
  rw [ticked_moving s (by omega)]
  refine ⟨rfl, rfl, (loadOf_tickDriven s).trans ?_⟩
  simp only [moving, and_true]

/-- With the open-loop duty there is no load. -/
theorem ticked_open (opens : openLoopTicks s) :
    (ticked s).duty = min (rampNext s / 64) (min 1023 s.trc.dcap) ∧ (ticked s).integral = 0 ∧ (ticked s).load = 0 := by
  obtain ⟨duty, integral, load⟩ := ticked_duty s moving
  rw [duty, integral, load]
  simp only [tickDriven_eq s, moving.ne', opens, if_true, if_false, true_and]
  split <;> omega

theorem ticked_regulated (closed : ¬openLoopTicks s) : (ticked s).duty = s.trc.duty ∧
    (ticked s).integral = s.trc.integral ∧
    (ticked s).load = if s.regOn then min 255 (s.trc.duty - rampNext s / 64) else 0 := by
  obtain ⟨duty, integral, load⟩ := ticked_duty s moving
  rw [duty, integral, load]
  simp only [tickDriven_eq s, moving.ne', closed, if_false, and_self]

end

/-- Speed and LOADED while V stays above 0. -/
theorem ticked_loaded (moving : 0 < rampNext s) : (ticked s).speed = s.trc.speed ∧
    (ticked s).loaded = if s.loadOn ≤ (ticked s).load then true else if (ticked s).load ≤ s.loadOff then false
      else s.trc.loaded := by
  obtain ⟨loaded, speed⟩ : (tickDriven s).loaded = s.trc.loaded ∧ (tickDriven s).speed = s.trc.speed := by
    rw [tickDriven_eq]
    exact ⟨rfl, rfl⟩
  rw [ticked_moving s (by omega), ← loaded, ← speed]
  exact ⟨rfl, rfl⟩

/-- The timers before the end of the event: a tick that brings V to 0 has stopped them. -/
theorem ticked_timers : (ticked s).stallTimer = (if rampNext s = 0 ∧ 0 < s.trc.ramp then none else s.trc.stallTimer) ∧
    (0 < rampNext s → (ticked s).bemfTimer = s.trc.bemfTimer) := by
  by_cases landed : rampNext s = 0 ∧ 0 < s.trc.ramp
  · rw [if_pos landed, ticked_landed s landed]
    exact ⟨rfl, fun moving => absurd landed.left moving.ne'⟩
  · rw [if_neg landed, ticked_moving s landed, tickDriven_eq]
    exact ⟨rfl, fun _ => rfl⟩

end

/-- Settles O31: a tick is one event at TRC, with the values above at its end. -/
theorem rampTickMovesTheRamp : Obligations.RampTickMovesTheRamp := by
  unfold Obligations.RampTickMovesTheRamp
  intro s runs
  have tick : exec .rampTick s = .next (fnuSettle (rampTick s)) := settled_running runs
  refine ⟨fun still => ?_, fun moving => ?_⟩
  · rw [tick, rampTick, if_neg]
    rcases still with h | h | h | h | h <;> simp [tickMoves, h]
  have moves : tickMoves s.trc.state = true := by rcases moving with h | h | h | h <;> simp [tickMoves, h]
  obtain ⟨published, shunt, momentumOff, outstanding⟩ := ticked_flags s
  obtain ⟨step, stated, target, ramp, drive, armed, dcap⟩ := ticked_kept s
  have opens : (s.trc.state = .failsafe ∨ s.regOn = false ∧ s.trc.state ≠ .idle) ↔ openLoopTicks s := by
    rcases moving with h | h | h | h <;> simp [openLoopTicks, h]
  have ends := endsBy_tractionEnd (t := ticked s) true false false published outstanding
  rw [← rampTick_eq moves] at ends
  obtain ⟨event, p, o, trc⟩ := ends
  intro goal land fall v open_
  have value : v = rampNext s := (rampNext_eq s moves).symm
  clear_value v
  subst value
  obtain ⟨stall, bemf⟩ := ticked_timers s
  refine ⟨rampTick s, tick, event, ?_⟩
  rw [StallTested, trc]
  refine ⟨ramp, step, stated, target, armed, dcap, shunt, momentumOff, ?_, ticked_state s moves, ?_, ticked_rest s, ?_, ?_,
    ticked_loaded s, ?_, ?_⟩
  · simp only [endedBy, ramp, stated, drive]
  · intro rest moved
    simp only [endedBy]
    rw [ticked_landed s ⟨rest, moved⟩]
    exact ⟨rfl, rfl, rfl, rfl, rfl⟩
  · exact fun above opened => ticked_open s above (opens.mp opened)
  · exact fun above closed => ticked_regulated s above (mt opens.mpr closed)
  · simp only [endedBy, true_or, if_true, bemfTested, ramp]
    split
    case isTrue runs =>
      obtain ⟨-, above, -⟩ := runs
      rw [bemf above]
    case isFalse => rfl
  · simp only [endedBy, true_or, if_true, stallTested, stall]

end Sys2Proof.Laws
end

section
/-!
SUPPORT. The bridge under a demand of OFF (R103), and the change of the cap and the back-EMF result at TRC, value by value
(R79, R82, R94).
-/
namespace Sys2Proof.Laws

open Sys2Proof.Machine

/-! ### A demand of OFF -/

/-- A bridge that is OFF keeps to a demand of OFF. -/
theorem takeDemand_off_closed {s : State} (closed : s.mbr.bridge = .off) (d : Dir) (duty : Nat) (atOnce : Bool) :
    takeDemand s .off d duty atOnce = demandKept s .off d duty := by
  have still : (demandKept s .off d duty).mbr.bridge = .off := closed
  by_cases mode : Mode.off = s.mbr.mode
  case neg =>
    rw [takeDemand_mode duty atOnce d (.inl mode), takeMode]
    simp only [still]
  case pos =>
    by_cases turned : d = s.mbr.drive
    · rw [takeDemand_duty duty atOnce mode nofun turned]
      simp [takeDutyAtOnce, still]
    · rw [takeDemand_turn duty atOnce mode nofun turned]
      simp only [takeDirection, still]

/-- A bridge that opens or brakes: what it leaves of the period and the timers (R103, R114, R115). -/
structure Opened (s t : State) : Prop where
  applied : t.mbr.applied = 0
  period : t.mbr.period = none
  tripFree : t.mbr.tripFreeTimer = none
  retry : s.mbr.bridge = .tripped → t.mbr.retryTimer = none

/-- A demand of OFF opens a bridge that was to drive or to stop. -/
theorem opened_off (s : State) (opened : s.mbr.bridge ≠ .off) :
    (takeMode s .off).mbr.bridge = .off ∧ Opened s (takeMode s .off) := by
  cases bridge : s.mbr.bridge <;> simp only [takeMode, bridge]
  case off => exact absurd bridge opened
  case tripped => exact ⟨rfl, rfl, rfl, rfl, fun _ => rfl⟩
  all_goals exact ⟨rfl, rfl, rfl, rfl, fun was => by simp [bridge] at was⟩

theorem handDemand_off_closed {v : State} (off : demandedMode v.trc.state = .off) (closed : v.mbr.bridge = .off)
    (atOnce : Bool) : (handDemand v atOnce).mbr.bridge = .off ∧ (handDemand v atOnce).mbr.applied = v.mbr.applied := by
  simp only [handDemand, off]
  split
  · rw [takeDemand_off_closed closed]
    exact ⟨closed, rfl⟩
  · exact ⟨closed, rfl⟩

/-- A demand of OFF leaves the bridge OFF with nothing applied, if the bridge was in keeping with the demand before it. -/
theorem handDemand_off {v : State} (off : demandedMode v.trc.state = .off) (safe : BridgeSafe v) (atOnce : Bool) :
    (handDemand v atOnce).mbr.bridge = .off ∧ (handDemand v atOnce).mbr.applied = 0 := by
  obtain ⟨offClosed, -, -, -, closedApplied, -⟩ := safe
  by_cases closed : v.mbr.bridge = .off
  · obtain ⟨bridge, applied⟩ := handDemand_off_closed off closed atOnce
    exact ⟨bridge, applied.trans (closedApplied (by simp [closed]))⟩
  · have mode : Mode.off ≠ v.mbr.mode := fun same => closed (offClosed same.symm)
    have hands : demandChanged v = true := by simp [demandChanged, off, mode]
    rw [handDemand, if_pos (by simp [hands]), off, takeDemand_mode _ atOnce _ (.inl mode)]
    obtain ⟨bridge, applied, -⟩ := opened_off (demandKept v .off v.trc.drive (demandedDuty v.trc)) closed
    exact ⟨bridge, applied⟩

/-- An event at TRC after which OFF is demanded leaves the bridge OFF with nothing applied. -/
theorem tractionEnd_off {s : State} {t : Trc} (off : demandedMode t.state = .off) (safe : BridgeSafe s)
    (tick work atOnce : Bool) :
    let u := tractionEnd s.trc tick work atOnce (s.setTrc t)
    u.mbr.bridge = .off ∧ u.mbr.applied = 0 := by
  obtain ⟨v, p, eq, mbr, -, -, trc⟩ := tractionEnd_handed s t tick work atOnce
  dsimp only
  rw [eq]
  exact handDemand_off (by rw [trc]; exact off) (by rw [BridgeSafe, mbr]; exact safe) atOnce

/-! ### The cap (R82) -/

theorem capTaken_duty (s : State) (dcap : Nat) : (capTaken s dcap).duty = min s.trc.duty (min 1023 dcap) := by
  simp only [capTaken]
  split
  case isTrue falls => exact (Nat.min_eq_right falls.le).symm
  case isFalse stays => exact (Nat.min_eq_left (Nat.not_lt.mp stays)).symm

theorem capTaken_timers (s : State) (dcap : Nat) : (capTaken s dcap).stallTimer = s.trc.stallTimer ∧
    (capTaken s dcap).published = s.trc.published ∧ (capTaken s dcap).outstanding = s.trc.outstanding := by
  simp only [capTaken]
  split <;> exact ⟨rfl, rfl, rfl⟩

end Sys2Proof.Laws
end

section
/-!
PROOFS. The back-EMF timer, the stall timer and the change of the cap (R75, R78, R82, R94, R95, R105, R124).
-/
namespace Sys2Proof.Laws

open Sys2Proof.Machine

section
variable {s : State}

/-- The back-EMF timer expires (R78): a request is placed if none is outstanding. -/
theorem bemfExpiry_eq (runs : s.trc.bemfTimer ≠ none) :
    bemfExpiry s = if s.trc.outstanding then s.setTrc { s.trc with bemfTimer := some (s.bemfPeriod * 1000) }
      else gapOffer (s.setTrc { s.trc with bemfTimer := some (s.bemfPeriod * 1000), outstanding := true }) :=
  if_pos (Option.isSome_iff_ne_none.mpr runs)

/-- MBR refuses a gap where it does not drive (R105). -/
theorem gapOffer_refused (still : s.mbr.bridge = .off ∨ s.mbr.bridge = .brake ∨ s.mbr.bridge = .tripped) :
    gapOffer s = s.setTrc { s.trc with outstanding := false } := by
  rcases still with h | h | h <;> simp only [gapOffer, h]

/-- MBR takes a gap in DRIVE (R105). -/
theorem gapOffer_taken (drives : s.mbr.bridge = .drive) (free : s.mbr.gap = .noGap) :
    gapOffer s = (s.setMsq { s.msq with gap := .offered }).setMbr { s.mbr with gap := .pending } := by
  simp only [gapOffer, drives, setMsq_mbr, free, if_true]

/-- The expiry of the stall timer stalls (R95). -/
theorem stallExpiry_ends (runs : s.trc.stallTimer ≠ none) :
    EndsBy false false s (haltedIn s.trc .stalled) (stallExpiry s) := by
  rw [stallExpiry, if_pos (Option.isSome_iff_ne_none.mpr runs)]
  exact endsBy_tractionEnd false false false rfl rfl

/-- A traction state that holds V at 0, entered from one that does not, with the drive direction and the timers that follow. -/
theorem endedBy_halted (s : State) {x : Traction} (still : holdsStill x) :
    endedBy false false s (haltedIn s.trc x) = { haltedIn s.trc x with drive := s.trc.stated } := by
  have bemf : bemfTested s (haltedIn s.trc x) = none := by simp [bemfTested, haltedIn, rampStopped, disarmed]
  have stall : stallTested s (haltedIn s.trc x) = none :=
    if_neg fun ⟨state, _⟩ => by rcases still with h | h | h | h <;> simp [haltedIn, h] at state
  simp only [endedBy, bemf, stall]
  simp [haltedIn, rampStopped, disarmed]

end

/-- Settles O32. -/
theorem tractionTimersExpire : Obligations.TractionTimersExpire := by
  unfold Obligations.TractionTimersExpire
  refine ⟨fun s runs stopped => ?_, fun s runs timer => ?_, fun s runs => ⟨fun stopped => ?_, fun timer state => ?_⟩,
    fun s cap => ?_⟩
  · have stands : bemfExpiry s = s := if_neg (by simp [stopped])
    exact (live_running runs).trans (by rw [stands])
  · have expires : exec .bemfTimerExpiry s = .next (bemfExpiry s) := live_running runs
    rw [expires, bemfExpiry_eq timer]
    refine ⟨fun out => by rw [if_pos out], fun free still => ?_, fun free drives gap => ?_⟩
    · rw [if_neg (by simp [free]), gapOffer_refused]
      · rw [← free]
        rfl
      · exact still
    · rw [if_neg (by simp [free]), gapOffer_taken]
      · rfl
      · exact drives
      · exact gap
  · have stands : stallExpiry s = s := if_neg (by simp [stopped])
    exact (settled_running runs).trans (by rw [stands])
  · obtain ⟨event, p, o, trc⟩ := stallExpiry_ends timer
    rw [endedBy_halted s (.inr (.inr (.inl rfl)))] at trc
    refine ⟨stallExpiry s, settled_running runs, event, ?_, ?_, fun _ _ safe => ?_⟩
    · rw [trc]
      rfl
    · obtain ⟨published, -⟩ := event
      rw [published, trc]
      rfl
    · rw [stallExpiry, if_pos (Option.isSome_iff_ne_none.mpr timer)]
      exact tractionEnd_off (t := haltedIn s.trc .stalled) rfl safe false false false
  · obtain ⟨stall, published, outstanding⟩ := capTaken_timers s cap
    obtain ⟨-, -, -, -, -, -, -, speed, state, dcap⟩ := capTaken_kept s cap
    obtain ⟨⟨-, -, -, -, same⟩, p, o, trc⟩ :=
      endsBy_tractionEnd (t := capTaken s cap) false true (cap < s.trc.dcap) published outstanding
    rw [← tractionCap_eq] at same trc
    intro u
    refine ⟨same, ?_, ?_, ?_, ?_, ?_⟩ <;> simp only [StallTested, u, trc]
    · simp only [endedBy, true_or, or_true, if_true, stallTested, stall]
    · exact dcap
    · exact capTaken_duty s cap
    · exact state
    · exact speed

end Sys2Proof.Laws
end

section
/-!
PROOFS. A back-EMF result at TRC, value by value (R79, R80, R83, R94).
-/
namespace Sys2Proof.Laws

open Sys2Proof.Machine

/-! ### The regulator (R79) -/

section
variable (s : State) (raw : Nat)

/-- The integral of the regulator, held by the anti-windup test or moved within its range. -/
theorem integralNext_eq (i bound ki : Nat) (e p : Int) : (integralNext i bound ki e p : Int) =
    if ((bound : Int) ≤ ((i / 256 : Nat) : Int) + p ∧ 0 < e) ∨ (((i / 256 : Nat) : Int) + p ≤ 0 ∧ e < 0) then (i : Int)
    else max 0 (min 261888 (i + e * ki)) := by
  have clamped := clampInt_eq ((i : Int) + e * ki) 261888
  simp only [integralNext, Bool.or_eq_true, Bool.and_eq_true, decide_eq_true_eq]
  split
  · rfl
  · exact clamped

/-- TRC after a result that the regulator takes with V at a whole speed unit or more. -/
theorem resultTaken_driving (moving : 0 < s.trc.ramp / 64) :
    let t := resultTaken s raw
    let e := regulatorError s.trc (measuredSpeed raw s.bemfScale)
    let p := proportional e s.kp
    t.integral = integralNext s.trc.integral (min 1023 s.trc.dcap) s.ki e p ∧
      t.duty = clampInt (((integralNext s.trc.integral (min 1023 s.trc.dcap) s.ki e p) / 256 : Nat) + p) 0
        (min 1023 s.trc.dcap) := by
  have eq : regulated s raw = _ := if_neg moving.ne'
  simp only [resultTaken, loadTaken, eq]
  exact ⟨rfl, rfl⟩

/-- TRC after a result taken with V below a whole speed unit. -/
theorem resultTaken_rest (rest : s.trc.ramp / 64 = 0) :
    (resultTaken s raw).integral = 0 ∧ (resultTaken s raw).duty = 0 := by
  have eq : regulated s raw = _ := if_pos rest
  simp only [resultTaken, loadTaken, eq, and_self]

/-- L and LOADED after a result that the regulator takes, and what it leaves alone. -/
theorem resultTaken_load (on : s.regOn = true) :
    let t := resultTaken s raw
    t.load = (if 0 < s.trc.ramp / 64 then min 255 (t.duty - s.trc.ramp / 64) else 0) ∧
      t.loaded = (if s.loadOn ≤ t.load then true else if t.load ≤ s.loadOff then false else s.trc.loaded) ∧
      t.stallTimer = s.trc.stallTimer ∧ t.bemfTimer = s.trc.bemfTimer ∧ t.outstanding = false := by
  obtain ⟨-, -, -, ramp, -⟩ := regulated_kept s raw
  have kept : (regulated s raw).loaded = s.trc.loaded ∧ (regulated s raw).stallTimer = s.trc.stallTimer ∧
      (regulated s raw).bemfTimer = s.trc.bemfTimer := by
    simp only [regulated]
    split <;> exact ⟨rfl, rfl, rfl⟩
  obtain ⟨loaded, stall, bemf⟩ := kept
  simp only [resultTaken, loadTaken, loadOf, ramp, on, true_and, loaded, stall, bemf, and_self]

end

/-- TRC after the regulator has run: the drive direction follows at V 0, the stall test is made, and no request is
outstanding. -/
theorem bemfResult_trc {s : State} (raw : Nat) (state : s.trc.state = .running ∨ s.trc.state = .reversing)
    (on : s.regOn = true) : ∃ p, (bemfResult s raw).trc = { resultTaken s raw with
      drive := if s.trc.ramp = 0 then s.trc.stated else s.trc.drive
      stallTimer := stallTested s (resultTaken s raw)
      published := p } := by
  obtain ⟨-, stated, -, ramp, drive, -, same, -⟩ := resultTaken_kept s raw
  obtain ⟨-, -, -, -, answered⟩ := resultTaken_load s raw on
  obtain ⟨-, -, -, gap, -⟩ := tractionEnd_spec s.trc false true false (s.setTrc (resultTaken s raw))
  obtain ⟨p, o, trc⟩ := tractionEnd_trc s (resultTaken s raw) false true false
  have outstanding : o = (resultTaken s raw).outstanding := by
    rw [trc] at gap
    rcases gap with ⟨-, kept⟩ | ⟨-, withdrawn, -⟩
    · exact kept
    · exact withdrawn.trans answered.symm
  rw [bemfResult_regulated raw state on, trc, outstanding]
  refine ⟨p, ?_⟩
  simp only [endedBy, same, ramp, stated, drive, true_or, or_true, if_true, Bool.false_eq_true, ne_eq, not_true, or_self,
    if_false]

/-! ### The delivery (R107, R119) -/

/-- The conversion of a gap that stands completes: TRC takes its code once MBR has ended the gap. -/
theorem conversionDone_bemf {s : State} {code : BitVec 12} (converts : s.msq.converting = some ⟨.bemf, .gap, .trc, false⟩) :
    ∃ q m, conversionDone s code = arbiterActs (bemfResult ((s.setMsq q).setMbr m) code.toNat) := by
  have other : Channel.bemf ≠ .motorI := nofun
  have ended (u : State) : ∃ m, gapEnd u = u.setMbr m := by
    simp only [gapEnd]
    split
    · exact ⟨_, rfl⟩
    · exact ⟨u.mbr, rfl⟩
  let q := conversionTaken s.msq ⟨.bemf, .gap, .trc, false⟩ code.toNat
  obtain ⟨m, gap⟩ := ended (s.setMsq q)
  refine ⟨q, m, ?_⟩
  simp only [conversionDone, converts, codeRead_other _ _ _ other, senseRead_other _ _ _ other]
  rw [← gap]
  rfl

theorem sameBut_bemfResult (s : State) (q : Msq) (m : Mbr) (raw : Nat) :
    SameBut [.fnu, .trc, .mbr, .msq] s (arbiterActs (bemfResult ((s.setMsq q).setMbr m) raw)) := by
  intro p hp
  cases p <;> simp_all [partSame]

/-- Settles O33: in RUNNING and REVERSING with regulation on the result runs the regulator, and else it only measures. -/
theorem backEmfResultIsTaken : Obligations.BackEmfResultIsTaken := by
  unfold Obligations.BackEmfResultIsTaken
  intro s code runs converts raw speed vi e p bound trial
  obtain ⟨q, m, done⟩ := conversionDone_bemf (code := code) converts
  let v := (s.setMsq q).setMbr m
  have trc : (conversionDone s code).trc = (bemfResult v raw).trc := by rw [done]; rfl
  have fnu : (conversionDone s code).fnu = (bemfResult v raw).fnu := by rw [done]; rfl
  refine ⟨conversionDone s code, settled_running runs, done ▸ sameBut_bemfResult s q m raw, ?_⟩
  by_cases regulates : (s.trc.state = .running ∨ s.trc.state = .reversing) ∧ s.regOn = true
  case neg =>
    rw [not_and_or, not_or, Bool.not_eq_true] at regulates
    have measured := bemfResult_measured (s := v) raw regulates
    rw [trc, fnu, measured]
    refine ⟨rfl, rfl, rfl, rfl, rfl, rfl, rfl, rfl, fun state on => ?_, fun _ => ⟨rfl, rfl⟩⟩
    rcases regulates with ⟨running, reversing⟩ | off
    · exact absurd state (by simp [running, reversing])
    · simp [off] at on
  case pos =>
    obtain ⟨state, on⟩ := regulates
    obtain ⟨step, stated, target, ramp, -, armed, same, -, taken⟩ := resultTaken_kept s raw
    obtain ⟨load, loaded, stall, bemf, answered⟩ := resultTaken_load s raw on
    obtain ⟨x, ended⟩ := bemfResult_trc (s := v) raw state on
    have ended : (conversionDone s code).trc = { resultTaken s raw with
        drive := if s.trc.ramp = 0 then s.trc.stated else s.trc.drive
        stallTimer := stallTested s (resultTaken s raw)
        published := x } := trc.trans ended
    rw [StallTested, ended, fnu]
    refine ⟨answered, ramp, step, stated, target, armed, same, bemf, fun _ _ => ⟨taken, fun moving => ?_, fun rest => ?_, ?_,
      loaded⟩, fun other => ?_⟩
    · obtain ⟨integral, duty⟩ := resultTaken_driving s raw moving
      refine ⟨?_, ?_, load.trans (if_pos moving)⟩
      · dsimp only
        rw [integral]
        exact integralNext_eq _ _ _ _ _
      · dsimp only
        rw [duty, integral]
        exact clampInt_eq _ _
    · obtain ⟨integral, duty⟩ := resultTaken_rest s raw rest
      exact ⟨integral, duty, load.trans (if_neg (by omega))⟩
    · simp only [stallTested, stall]
    · rcases other with ⟨running, reversing⟩ | off
      · exact absurd state (by simp [running, reversing])
      · simp [off] at on

end Sys2Proof.Laws
end

section
/-!
PROOFS. What MBR does with a demand, by what of it differs and by the bridge state (R102 to R104, R108, R114, R115).
-/
namespace Sys2Proof.Laws

open Sys2Proof.Machine

section
variable (s : State)

/-! ### The pieces of a demand -/

/-- A gap given up, or none to be given up: MBR has none after it, and MSQ and TRC alone hear of it. -/
theorem abandonGap_eq : abandonGap s = ((s.setMbr { s.mbr with
      gap := .noGap, settleTimer := if s.mbr.gap = .noGap then s.mbr.settleTimer else none }).setMsq
      (if s.mbr.gap = .noGap then s.msq else gapWithdraw s.msq)).setTrc
      { s.trc with outstanding := if s.mbr.gap = .noGap then s.trc.outstanding else false } := by
  by_cases none : s.mbr.gap = .noGap
  · have same : s.mbr = { s.mbr with gap := .noGap } := by rw [← none]
    rw [if_pos none, if_pos none, if_pos none, ← same, abandonGap, if_pos none]
    rfl
  · rw [if_neg none, if_neg none, if_neg none, abandonGap, if_neg none]

theorem bridgeEmergency_stops : (bridgeEmergency s).mbr.applied = 0 ∧ (bridgeEmergency s).mbr.period = none ∧
    (bridgeEmergency s).mbr.tripFreeTimer = none := by
  simp only [bridgeEmergency]
  split <;> exact ⟨rfl, rfl, rfl⟩

theorem opened_emergency (moving : s.mbr.bridge ≠ .brake) : Opened s (takeMode s .emergencyStop) := by
  obtain ⟨-, retry⟩ := takeMode_emergencyStop moving
  have stops : (takeMode s .emergencyStop).mbr.applied = 0 ∧ (takeMode s .emergencyStop).mbr.period = none ∧
      (takeMode s .emergencyStop).mbr.tripFreeTimer = none := by
    cases bridge : s.mbr.bridge <;> simp only [takeMode, bridge]
    case brake => exact absurd bridge moving
    all_goals exact bridgeEmergency_stops _
  obtain ⟨applied, period, tripFree⟩ := stops
  exact ⟨applied, period, tripFree, fun tripped => retry.trans (if_pos tripped)⟩

/-- The first period of a bridge that starts or turns. -/
abbrev freshPeriod (s : State) : PwmPeriod :=
  { ordinal := s.mbr.periods + 1, length := pwmLength s.pwmFreq, past := 0, demands := 0, opened := false }

theorem takeMode_drive (still : s.mbr.bridge = .off ∨ s.mbr.bridge = .brake) : takeMode s .drive = bridgeStart s := by
  rcases still with h | h <;> simp only [takeMode, h]

/-- A turn starts a fresh period at the demanded duty, with no gap (R104, R108). -/
theorem takeDirection_driving (moving : s.mbr.bridge = .drive ∨ s.mbr.bridge = .gap) :
    let t := takeDirection s
    t.mbr.bridge = .drive ∧ t.mbr.applied = s.mbr.demanded ∧ t.mbr.period = some (freshPeriod s) ∧ t.mbr.gap = .noGap ∧
      t.mbr.tripFreeTimer = s.mbr.tripFreeTimer := by
  rcases moving with h | h <;> simp only [takeDirection, h, abandonGap_eq s]
  · exact ⟨rfl, rfl, rfl, rfl, rfl⟩
  · exact ⟨rfl, rfl, rfl, rfl, rfl⟩

/-- In TRIPPED a demand of DRIVE waits (R103). -/
theorem takeDemand_waits (tripped : s.mbr.bridge = .tripped) (d : Dir) (duty : Nat) (atOnce : Bool) :
    takeDemand s .drive d duty atOnce = demandKept s .drive d duty := by
  have still : (demandKept s .drive d duty).mbr.bridge = .tripped := tripped
  by_cases mode : Mode.drive = s.mbr.mode
  case neg => simp only [takeDemand_mode duty atOnce d (.inl mode), takeMode, still]
  case pos =>
    by_cases straight : d = s.mbr.drive
    · simp [takeDemand_duty duty atOnce mode nofun straight, takeDutyAtOnce, still]
    · simp only [takeDemand_turn duty atOnce mode nofun straight, takeDirection, still]

/-! ### A duty alone (R102) -/

/-- The demand's duty alone differs: what is applied, and the period, change in DRIVE at once or not at all. -/
theorem takeDemand_duty_mbr {m : Mode} {d : Dir} {duty : Nat} {atOnce : Bool} (mode : m = s.mbr.mode)
    (other : m ≠ .emergencyStop) (straight : d = s.mbr.drive) :
    takeDemand s m d duty atOnce = s.setMbr { s.mbr with
      demanded := duty
      applied := if atOnce = true ∧ s.mbr.bridge = .drive then duty else s.mbr.applied
      period := if atOnce = true ∧ s.mbr.bridge = .drive then s.mbr.period.map (fun p => dutyTakenAtOnce p duty)
                else s.mbr.period } := by
  rw [takeDemand_duty duty atOnce mode other straight, mode, straight]
  cases atOnce
  · rfl
  · by_cases drives : s.mbr.bridge = .drive
    · have acts : takeDutyAtOnce (demandKept s s.mbr.mode s.mbr.drive duty) = _ := if_pos drives
      rw [if_pos rfl, acts, if_pos ⟨rfl, drives⟩, if_pos ⟨rfl, drives⟩]
      rfl
    · have stands : takeDutyAtOnce (demandKept s s.mbr.mode s.mbr.drive duty) = _ := if_neg drives
      rw [if_pos rfl, stands, if_neg (by simp [drives]), if_neg (by simp [drives])]
      rfl

theorem sameBut_setMbr (m : Mbr) : SameBut [.mbr] s (s.setMbr m) := by
  intro p hp
  cases p <;> first
    | rfl
    | simp at hp

theorem sameBut_takeDemand (m : Mode) (d : Dir) (duty : Nat) (atOnce : Bool) :
    SameBut [.trc, .mbr, .msq] s (takeDemand s m d duty atOnce) := by
  intro p hp
  cases p <;> simp_all [partSame]

end

/-- Settles O37, by what of the demand differs: the mode, the direction, or the duty alone. -/
theorem bridgeTakesDemands : Obligations.BridgeTakesDemands := by
  unfold Obligations.BridgeTakesDemands
  intro s m d duty atOnce t fresh
  let v := demandKept s m d duty
  have kept := takeDemand_held s m d duty atOnce
  simp only [held, Prod.mk.injEq] at kept
  obtain ⟨mode, drive, demanded⟩ := kept
  refine ⟨sameBut_takeDemand s m d duty atOnce, mode, drive, demanded, ?_, ?_, ?_, ?_, ?_, ?_, ?_, ?_⟩
  · rintro rfl changed opened
    obtain ⟨bridge, applied, period, tripFree, retry⟩ := opened_off v opened
    rw [show t = takeMode v .off from takeDemand_mode duty atOnce d (.inl changed)]
    exact ⟨bridge, applied, period, tripFree, retry⟩
  · rintro rfl moving
    obtain ⟨bridge, -⟩ := takeMode_emergencyStop (s := v) moving
    obtain ⟨applied, period, -, retry⟩ := opened_emergency v moving
    rw [show t = takeMode v .emergencyStop from takeDemand_mode duty atOnce d (.inr rfl)]
    exact ⟨bridge, applied, period, retry⟩
  · rintro rfl braking
    rw [show t = takeMode v .emergencyStop from takeDemand_mode duty atOnce d (.inr rfl)]
    simp only [takeMode, show v.mbr.bridge = .brake from braking]
  · rintro rfl changed still
    rw [show t = takeMode v .drive from takeDemand_mode duty atOnce d (.inl changed), takeMode_drive v still]
    exact ⟨rfl, rfl, rfl, rfl, rfl, rfl⟩
  · rintro rfl tripped
    rw [show t = v from takeDemand_waits s tripped d duty atOnce]
    rfl
  · intro same other turned moving
    rw [show t = takeDirection v from takeDemand_turn duty atOnce same other turned]
    exact takeDirection_driving v moving
  · intro same other straight
    have eq : t = s.setMbr _ := takeDemand_duty_mbr s same other straight
    rw [eq]
    refine ⟨rfl, sameBut_setMbr s _, fun next => ?_, fun once drives => ⟨if_pos ⟨once, drives⟩, fun none => ?_,
      fun p period => ?_⟩⟩
    · have stands : ¬(atOnce = true ∧ s.mbr.bridge = .drive) := by
        rcases next with late | still
        · simp [late]
        · simp [still]
      exact ⟨if_neg stands, if_neg stands⟩
    · simp [none]
    · obtain ⟨after, within⟩ := timePast_spec p
      refine ⟨timePast p, after, within, ?_⟩
      simp [once, drives, period, dutyTakenAtOnce]
  · rintro (⟨same, straight, other⟩ | free)
    · have eq : t = s.setMbr _ := takeDemand_duty_mbr s same other straight
      rw [eq]
      exact ⟨rfl, rfl⟩
    · exact (gapStands_takeDemand s m d duty atOnce).resolve_right fun ⟨_, _, gap⟩ => gap free

end Sys2Proof.Laws
end

section
/-!
SUPPORT. A trip as MBR, MSQ and TRC see it: the bridge opens, traction trips, and the trip is measured or counted (R91, R93, R109 to
R112, R115, R121, R122, R126).
-/
namespace Sys2Proof.Laws

open Sys2Proof.Machine

/-! ### A demand that MBR keeps without acting on it -/

/-- MBR that holds the demand already keeps it. -/
theorem demandKept_of_unchanged {v : State} (unchanged : demandChanged v = false) :
    demandKept v (demandedMode v.trc.state) v.trc.drive (demandedDuty v.trc) = v := by
  simp only [demandChanged, Bool.or_eq_false_iff, decide_eq_false_iff_not, not_not] at unchanged
  obtain ⟨⟨mode, drive⟩, duty⟩ := unchanged
  rw [mode, drive, duty]
  rfl

/-- A bridge that is OFF keeps a demand of OFF, and one that is TRIPPED keeps a demand of DRIVE, and neither acts on it. -/
theorem handDemand_kept {v : State} (waits : demandedMode v.trc.state = .off ∧ v.mbr.bridge = .off ∨
      demandedMode v.trc.state = .drive ∧ v.mbr.bridge = .tripped) (atOnce : Bool) :
    handDemand v atOnce = demandKept v (demandedMode v.trc.state) v.trc.drive (demandedDuty v.trc) := by
  simp only [handDemand]
  split
  case isTrue =>
    rcases waits with ⟨mode, bridge⟩ | ⟨mode, bridge⟩ <;> rw [mode]
    · exact takeDemand_off_closed bridge _ _ atOnce
    · exact takeDemand_waits v bridge _ _ atOnce
  case isFalse unchanged => exact (demandKept_of_unchanged (by simp_all)).symm

/-- The end of such an event at MBR and MSQ. -/
theorem tractionEnd_kept {s : State} {t : Trc} (waits : demandedMode t.state = .off ∧ s.mbr.bridge = .off ∨
      demandedMode t.state = .drive ∧ s.mbr.bridge = .tripped) (tick work atOnce : Bool) :
    let u := tractionEnd s.trc tick work atOnce (s.setTrc t)
    (∃ d, u.mbr = { s.mbr with mode := demandedMode t.state, drive := d, demanded := demandedDuty t }) ∧ u.msq = s.msq := by
  obtain ⟨v, p, eq, mbr, msq, -, trc⟩ := tractionEnd_handed s t tick work atOnce
  have state : v.trc.state = t.state := by rw [trc]; rfl
  have duty : demandedDuty v.trc = demandedDuty t := by rw [trc]; rfl
  dsimp only
  rw [eq, handDemand_kept (by rwa [state, mbr]) atOnce, state, duty]
  exact ⟨⟨v.trc.drive, by rw [← mbr]; rfl⟩, msq⟩

/-! ### The bridge opens and traction trips (R91, R109, R110) -/

section
variable (s : State)

/-- MBR as a trip leaves it (steps 1 to 3 of R109). -/
def trippedMbr (s : State) : Mbr :=
  { s.mbr with bridge := .tripped, applied := 0, period := none, tripFreeTimer := none, gap := .noGap
               settleTimer := if s.mbr.gap = .noGap then s.mbr.settleTimer else none
               currentHold := true, heldCode := none
               sample := (bridgeTripped s).mbr.sample }

theorem bridgeTripped_eq : bridgeTripped s = ((s.setMbr (trippedMbr s)).setMsq
      (if s.mbr.gap = .noGap then s.msq else gapWithdraw s.msq)).setTrc
      { s.trc with outstanding := if s.mbr.gap = .noGap then s.trc.outstanding else false } := by
  have sample : trippedMbr s = { trippedMbr s with sample := (bridgeTripped s).mbr.sample } := rfl
  rw [sample, bridgeTripped, abandonGap_eq]
  rfl

/-- TRC at a trip, its publication and request apart (R91). -/
theorem endedBy_tripped : endedBy false false s (tripEntered s.trc) =
    { tripEntered s.trc with drive := if s.trc.ramp = 0 then s.trc.stated else s.trc.drive } := by
  have bemf : bemfTested s (tripEntered s.trc) = none := if_neg (by simp [tripEntered])
  have stall : stallTested s (tripEntered s.trc) = none := if_neg (by simp [tripEntered])
  have stopped : (tripEntered s.trc).bemfTimer = none ∧ (tripEntered s.trc).stallTimer = none := ⟨rfl, rfl⟩
  obtain ⟨bemfStopped, stallStopped⟩ := stopped
  simp only [endedBy, bemf, stall, bemfStopped, stallStopped, ite_self]
  rfl

end

/-- Traction trips where the bridge has opened into TRIPPED: V is held, and MBR goes on waiting. -/
theorem tripNotice_tripped {s : State} (bridge : s.mbr.bridge = .tripped)
    (moving : s.trc.state = .running ∨ s.trc.state = .reversing ∨ s.trc.state = .failsafe) :
    (∃ p o, (tripNotice s).trc = { tripEntered s.trc with
        drive := if s.trc.ramp = 0 then s.trc.stated else s.trc.drive, published := p, outstanding := o }) ∧
      (∃ d, (tripNotice s).mbr = { s.mbr with mode := .drive, drive := d, demanded := 0 }) ∧ (tripNotice s).msq = s.msq := by
  have eq : tripNotice s = tractionEnd s.trc false false false (s.setTrc (tripEntered s.trc)) :=
    if_pos (by rcases moving with h | h | h <;> simp [underRegulation, h])
  obtain ⟨p, o, trc⟩ := tractionEnd_trc s (tripEntered s.trc) false false false
  obtain ⟨mbr, msq⟩ := tractionEnd_kept (t := tripEntered s.trc) (.inr ⟨rfl, bridge⟩) false false false
  rw [endedBy_tripped] at trc
  rw [eq]
  exact ⟨⟨p, o, trc⟩, mbr, msq⟩

/-! ### The measurement (R121, R122) -/

/-- What a withdrawn gap leaves of MSQ. -/
theorem gapWithdraw_keeps (q : Msq) : (gapWithdraw q).slot = q.slot ∧ (gapWithdraw q).queue = q.queue ∧
    (gapWithdraw q).pass = q.pass ∧ (gapWithdraw q).results = q.results ∧
    ((gapWithdraw q).converting = q.converting ∨
      (gapWithdraw q).converting = q.converting.map fun c => { c with void := true }) := by
  cases gap : q.gap <;> simp [gapWithdraw, gap]

/-- An inject with cancel into an empty slot, by what the converter is doing (R121, R122). -/
theorem injectRequest_cancel {q : Msq} {r : Inject} (empty : q.slot = .empty) (cancel : r.cancel = true) :
    let t := injectRequest q r
    let running := some { channel := r.channel, source := Source.inject, requester := r.requester, void := false }
    t.results = q.results ∧
      (q.converting = none → t.slot = .converting r ∧ t.converting = running) ∧
      (∀ c, q.converting = some c → c.source = .scan →
        t.slot = .converting r ∧ t.pass = q.pass ∧ t.converting = running) ∧
      (∀ c, q.converting = some c → c.source = .queue →
        t.slot = .converting r ∧ t.queue = queuePutBack q.queue ⟨c.channel, c.requester⟩) ∧
      (∀ c, q.converting = some c → c.source = .gap → t.slot = .waiting r) := by
  intro t running
  have eq : t = arbitrate (abortRoutine { q with slot := .waiting r }) :=
    (if_pos (by simp [injectRoom, empty])).trans (by rw [cancel]; rfl)
  rw [eq]
  rcases converting : q.converting with _ | c
  · simp [arbitrate, abortRoutine, arbiterStart, running]
  · rcases source : c.source <;> simp [arbitrate, abortRoutine, arbiterStart, source, running]

/-! ### The count (R93, R112, R115) -/

/-- What MBR counts of the trips. -/
def tripCounts (m : Mbr) : Bool × Bool × Nat := (m.awaited, m.lockoutShort, m.overloads)

/-- MBR with a TRIPPED bridge opened into OFF and the retry timer stopped. -/
def tripOpened (m : Mbr) : Mbr :=
  { m with retryTimer := none, bridge := .off, applied := 0, period := none, tripFreeTimer := none }

theorem lockoutOpens_tripped {s : State} (tripped : s.mbr.bridge = .tripped) :
    lockoutOpens s = s.setMbr (tripOpened s.mbr) := if_pos tripped

/-- TRC as a lockout leaves it before the end of its event (R93): SUSPENDED stays, disarmed. -/
def lockedOut (t : Trc) : Trc := if t.state = .suspended then disarmed t else haltedIn t .lockout

theorem lockoutNotice_eq (s : State) :
    lockoutNotice s = tractionEnd s.trc false false false (s.setTrc (lockedOut s.trc)) := rfl

theorem lockedOut_off (t : Trc) : demandedMode (lockedOut t).state = .off := by
  simp only [lockedOut]
  split
  case isTrue suspended => exact congrArg demandedMode suspended
  case isFalse => rfl

/-- TRC after a lockout in any state but SUSPENDED. -/
theorem lockoutNotice_halted {s : State} (moving : s.trc.state ≠ .suspended) : ∃ p o, (lockoutNotice s).trc =
    { haltedIn s.trc .lockout with drive := s.trc.stated, published := p, outstanding := o } := by
  obtain ⟨p, o, trc⟩ := tractionEnd_trc s (lockedOut s.trc) false false false
  rw [lockedOut, if_neg moving, endedBy_halted s (.inr (.inl rfl))] at trc
  rw [lockoutNotice_eq, lockedOut, if_neg moving]
  exact ⟨p, o, trc⟩

/-- A lockout where the bridge is OFF by then. -/
theorem lockoutNotice_closed {s : State} (closed : s.mbr.bridge = .off) :
    (∃ d n, (lockoutNotice s).mbr = { s.mbr with mode := .off, drive := d, demanded := n }) ∧
      (lockoutNotice s).msq = s.msq := by
  obtain ⟨⟨d, mbr⟩, msq⟩ := tractionEnd_kept (t := lockedOut s.trc) (.inl ⟨lockedOut_off _, closed⟩) false false false
  rw [lockedOut_off] at mbr
  exact ⟨⟨d, _, mbr⟩, msq⟩

/-- A lockout of a TRIPPED bridge opens it, with the retry timer stopped. -/
theorem lockoutNotice_opened {s : State} (tripped : s.mbr.bridge = .tripped) :
    let u := lockoutNotice (lockoutOpens s)
    (∃ d n, u.mbr = { s.mbr with bridge := .off, applied := 0, period := none, tripFreeTimer := none, retryTimer := none
                                 mode := .off, drive := d, demanded := n }) ∧ u.msq = s.msq := by
  intro u
  rw [show u = lockoutNotice (s.setMbr (tripOpened s.mbr)) from congrArg lockoutNotice (lockoutOpens_tripped tripped)]
  exact lockoutNotice_closed rfl

theorem lockoutOpens_trc (s : State) : (lockoutOpens s).trc = s.trc := by
  simp only [lockoutOpens]
  split <;> rfl

/-- An overload below the fourth. -/
theorem judgeOverload_below {s : State} (below : s.mbr.overloads + 1 < 4) : judgeOverload s = s.setMbr { s.mbr with
    overloads := s.mbr.overloads + 1
    retryTimer := if s.mbr.bridge = .tripped then some 100000 else s.mbr.retryTimer } := by
  rw [judgeOverload, if_neg (by omega)]
  by_cases tripped : s.mbr.bridge = .tripped
  · rw [if_pos tripped]
    exact if_pos tripped
  · rw [if_neg tripped]
    exact if_neg tripped

/-- The fourth overload is a lockout. -/
theorem judgeOverload_fourth {s : State} (fourth : 4 ≤ s.mbr.overloads + 1) :
    judgeOverload s = lockoutNotice (lockoutOpens (s.setMbr { s.mbr with overloads := 0 })) := if_pos fourth

end Sys2Proof.Laws
end

section
/-!
PROOFS. Bridge current above the kept trip level (R91, R93, R109, R110, R112, R115, R121, R122).
-/
namespace Sys2Proof.Laws

open Sys2Proof.Machine

/-- Up to the measurement of the trip: the bridge has opened and traction has tripped. -/
def trips (s : State) : State := tripNotice (bridgeTripped s)

section
variable {s : State} (moving : s.trc.state = .running ∨ s.trc.state = .reversing ∨ s.trc.state = .failsafe)
include moving

/-- The part at the measurement of a trip. -/
theorem trips_spec :
    (∃ p o, (trips s).trc = { tripEntered s.trc with
        drive := if s.trc.ramp = 0 then s.trc.stated else s.trc.drive, published := p, outstanding := o }) ∧
      (∃ d, (trips s).mbr = { trippedMbr s with mode := .drive, drive := d, demanded := 0 }) ∧
      (trips s).msq = if s.mbr.gap = .noGap then s.msq else gapWithdraw s.msq := by
  have bridge : (bridgeTripped s).mbr.bridge = .tripped := by rw [bridgeTripped_eq]; rfl
  have state : (bridgeTripped s).trc.state = s.trc.state := by rw [bridgeTripped_eq]; rfl
  obtain ⟨⟨p, o, trc⟩, ⟨d, mbr⟩, msq⟩ := tripNotice_tripped bridge (by rwa [state])
  refine ⟨⟨p, o, trc.trans ?_⟩, ⟨d, mbr.trans ?_⟩, msq.trans ?_⟩ <;> rw [bridgeTripped_eq] <;> rfl

/-- What a trip leaves of MSQ, the gap source and a void mark apart. -/
theorem trips_msq : (trips s).msq.slot = s.msq.slot ∧ (trips s).msq.queue = s.msq.queue ∧
    (trips s).msq.pass = s.msq.pass ∧ (trips s).msq.results = s.msq.results ∧
    ((trips s).msq.converting = s.msq.converting ∨
      (trips s).msq.converting = s.msq.converting.map fun c => { c with void := true }) := by
  obtain ⟨-, -, msq⟩ := trips_spec moving
  rw [msq]
  split
  · exact ⟨rfl, rfl, rfl, rfl, .inl rfl⟩
  · exact gapWithdraw_keeps s.msq

/-- The conversion that a trip finds running, but for a void mark. -/
theorem trips_converting :
    (s.msq.converting = none → (trips s).msq.converting = none) ∧
      ∀ c, s.msq.converting = some c → ∃ x, (trips s).msq.converting = some x ∧ x.source = c.source ∧
        x.channel = c.channel ∧ x.requester = c.requester := by
  obtain ⟨-, -, -, -, converting⟩ := trips_msq moving
  refine ⟨fun idle => ?_, fun c runs => ?_⟩
  · rcases converting with same | void
    · exact same.trans idle
    · rw [void, idle]
      rfl
  · rcases converting with same | void
    · exact ⟨c, same.trans runs, rfl, rfl, rfl⟩
    · exact ⟨{ c with void := true }, by rw [void, runs]; rfl, rfl, rfl, rfl⟩

end

/-- MBR raises the injected conversion where the slot is EMPTY (R121). -/
theorem tripMeasure_empty {s : State} (empty : s.msq.slot = .empty) : tripMeasure s =
    (s.setMsq (injectRequest s.msq tripInject)).setMbr { s.mbr with sample := .present, awaited := true } :=
  if_pos (by simp [injectRoom, empty])

/-- A refusal counts as an overload at once (R110). -/
theorem tripMeasure_full {s : State} (full : s.msq.slot ≠ .empty) :
    tripMeasure s = judgeOverload (s.setMbr { s.mbr with awaited := false }) :=
  if_neg (by simp [injectRoom, full])

theorem tripActs_iff (m : Mbr) (milliamps : Nat) : tripActs m milliamps = true ↔
    (m.bridge = .drive ∨ m.bridge = .gap) ∧ 50 * m.tripLevel < milliamps := by
  simp [tripActs, Nat.mul_comm]

section
variable {s : State} (moving : s.trc.state = .running ∨ s.trc.state = .reversing ∨ s.trc.state = .failsafe)
include moving

/-- The fourth overload at a trip that finds the slot full. -/
theorem judgeOverload_trips (fourth : 4 ≤ s.mbr.overloads + 1) :
    let u := judgeOverload ((trips s).setMbr { (trips s).mbr with awaited := false })
    (∃ p o, u.trc = { haltedIn (tripEntered s.trc) .lockout with
        drive := s.trc.stated, published := p, outstanding := o }) ∧
      (∃ d n, u.mbr = { trippedMbr s with bridge := .off, retryTimer := none, awaited := false, overloads := 0
                                          mode := .off, drive := d, demanded := n }) ∧
      u.msq = (trips s).msq := by
  obtain ⟨⟨p, o, trc⟩, ⟨d, mbr⟩, -⟩ := trips_spec moving
  intro u
  have eq : u = lockoutNotice (lockoutOpens ((trips s).setMbr { (trips s).mbr with awaited := false, overloads := 0 })) :=
    judgeOverload_fourth (by rw [setMbr_mbr, mbr]; exact fourth)
  have tripped : ((trips s).setMbr { (trips s).mbr with awaited := false, overloads := 0 }).mbr.bridge = .tripped := by
    rw [setMbr_mbr, mbr]
    rfl
  obtain ⟨⟨d', n, mbr'⟩, msq'⟩ := lockoutNotice_opened tripped
  have same := lockoutOpens_trc ((trips s).setMbr { (trips s).mbr with awaited := false, overloads := 0 })
  rw [setMbr_trc, trc] at same
  obtain ⟨p', o', trc'⟩ := lockoutNotice_halted (s := lockoutOpens ((trips s).setMbr
    { (trips s).mbr with awaited := false, overloads := 0 })) (by rw [same]; nofun)
  rw [← eq, same] at trc'
  rw [← eq] at mbr' msq'
  rw [setMbr_mbr, mbr] at mbr'
  exact ⟨⟨p', o', trc'⟩, ⟨d', n, mbr'⟩, msq'⟩

end

/-- Settles O39: nothing below the level; above it the bridge opens and traction trips, and the trip is measured, or counted where
the slot is full. -/
theorem overcurrentTrips : Obligations.OvercurrentTrips := by
  unfold Obligations.OvercurrentTrips
  intro s ma runs
  have exec : exec (.overcurrentTrip ma) s = .next (fnuSettle (overcurrent s ma)) := settled_running runs
  refine ⟨fun still => ?_, fun bridge above moving => ⟨overcurrent s ma, exec, ?_, ?_⟩⟩
  · have stands : overcurrent s ma = s := by
      refine if_neg (mt (tripActs_iff _ _).mp fun ⟨driven, above⟩ => ?_)
      rcases still with ⟨drive, gap⟩ | below
      · exact driven.elim drive gap
      · omega
    rw [exec, stands]
  · intro p hp
    cases p <;> simp_all [partSame]
  have eq : overcurrent s ma = tripMeasure (trips s) := if_pos ((tripActs_iff _ _).mpr ⟨bridge, above⟩)
  rw [eq]
  obtain ⟨⟨p, o, trc⟩, ⟨d, mbr⟩, -⟩ := trips_spec moving
  obtain ⟨slot, queue, pass, results, -⟩ := trips_msq moving
  refine ⟨fun empty => ?_, fun full below => ?_, fun full fourth => ?_⟩
  · obtain ⟨idle, runs⟩ := trips_converting moving
    obtain ⟨kept, free, scan, queued, gap⟩ := injectRequest_cancel (r := tripInject) (slot.trans empty) rfl
    rw [tripMeasure_empty (slot.trans empty), setMbr_trc, setMbr_mbr, setMbr_msq, setMsq_trc, setMsq_msq, trc, mbr]
    refine ⟨rfl, rfl, rfl, rfl, rfl, fun gone => if_neg gone, rfl, rfl, rfl, rfl, rfl, rfl, kept.trans results,
      fun none => free (idle none), fun c was source => ?_, fun c was source => ?_, fun c was source => ?_⟩
    all_goals obtain ⟨x, converts, sameSource, channel, requester⟩ := runs c was
    · obtain ⟨taken, samePass, converting⟩ := scan x converts (sameSource.trans source)
      exact ⟨taken, samePass.trans pass, converting⟩
    · obtain ⟨taken, back⟩ := queued x converts (sameSource.trans source)
      rw [channel, requester, queue] at back
      exact ⟨taken, back⟩
    · exact gap x converts (sameSource.trans source)
  · rw [tripMeasure_full (slot ▸ full), judgeOverload_below (by rw [setMbr_mbr, mbr]; exact below)]
    rw [setMbr_trc, setMbr_trc, setMbr_mbr, setMbr_mbr, setMbr_msq, setMbr_msq, trc, mbr]
    exact ⟨rfl, rfl, rfl, rfl, rfl, rfl, slot⟩
  · obtain ⟨⟨p, o, trc⟩, ⟨d, n, mbr⟩, msq⟩ := judgeOverload_trips moving fourth
    rw [tripMeasure_full (slot ▸ full), trc, mbr, msq]
    exact ⟨rfl, rfl, rfl, rfl, rfl, rfl, rfl, rfl, rfl, rfl, rfl, rfl, slot, results⟩

end Sys2Proof.Laws
end

section
/-!
SUPPORT. What MBR counts of the trips stands through a demand, and a bridge that drives takes the demand that a retry brings
(R92, R103, R110 to R115).
-/
namespace Sys2Proof.Laws

open Sys2Proof.Machine

/-! ### The counts of the trips -/

section
variable (s : State)

theorem abandonGap_counts : tripCounts (abandonGap s).mbr = tripCounts s.mbr := by
  rw [abandonGap_eq]
  rfl

theorem bridgeEmergency_counts : tripCounts (bridgeEmergency s).mbr = tripCounts s.mbr := by
  simp only [bridgeEmergency]
  split <;> rfl

theorem takeMode_counts (m : Mode) : tripCounts (takeMode s m).mbr = tripCounts s.mbr := by
  have abandoned : tripCounts (bridgeEmergency (abandonGap s)).mbr = tripCounts s.mbr :=
    (bridgeEmergency_counts _).trans (abandonGap_counts s)
  cases m <;> cases bridge : s.mbr.bridge <;> simp only [takeMode, bridge]
  case emergencyStop.off => exact bridgeEmergency_counts s
  case emergencyStop.tripped => exact bridgeEmergency_counts (endTrip s)
  case emergencyStop.drive | emergencyStop.gap => exact abandoned
  case off.drive | off.gap => exact abandonGap_counts s
  all_goals rfl

theorem takeDirection_counts : tripCounts (takeDirection s).mbr = tripCounts s.mbr := by
  cases bridge : s.mbr.bridge <;> simp only [takeDirection, bridge]
  case drive | gap => exact abandonGap_counts s

theorem handDemand_counts (atOnce : Bool) : tripCounts (handDemand s atOnce).mbr = tripCounts s.mbr := by
  let v := demandKept s (demandedMode s.trc.state) s.trc.drive (demandedDuty s.trc)
  have acts : tripCounts (takeDutyAtOnce v).mbr = tripCounts s.mbr := by
    simp only [takeDutyAtOnce]
    split <;> rfl
  simp only [handDemand, takeDemand]
  (repeat' split)
  · exact takeMode_counts v _
  · exact takeDirection_counts v
  · exact acts
  · rfl
  · rfl

theorem lockoutNotice_counts : tripCounts (lockoutNotice s).mbr = tripCounts s.mbr := by
  obtain ⟨v, p, eq, mbr, -⟩ := tractionEnd_handed s (lockedOut s.trc) false false false
  rw [lockoutNotice_eq, eq, ← mbr]
  exact handDemand_counts v false

theorem lockoutOpens_counts : tripCounts (lockoutOpens s).mbr = tripCounts s.mbr := by
  simp only [lockoutOpens]
  split <;> rfl

end

/-! ### A lockout (R93, R111, R112) -/

/-- What a lockout leaves at MBR and at TRC. -/
theorem lockout_spec (s : State) :
    let u := lockoutNotice (lockoutOpens s)
    tripCounts u.mbr = tripCounts s.mbr ∧
      (s.trc.state ≠ .suspended → u.mbr.mode = .off ∧ ∃ p o, u.trc =
        { haltedIn s.trc .lockout with drive := s.trc.stated, published := p, outstanding := o }) ∧
      (s.trc.state = .suspended →
        u.trc.state = .suspended ∧ u.trc.armed = false ∧ u.trc.step = 0 ∧ u.trc.target = 0) ∧
      (s.mbr.bridge = .tripped → u.mbr.bridge = .off) := by
  intro u
  have same := lockoutOpens_trc s
  refine ⟨(lockoutNotice_counts _).trans (lockoutOpens_counts s), fun moving => ?_, fun suspended => ?_, fun tripped => ?_⟩
  · obtain ⟨p, o, trc⟩ := lockoutNotice_halted (s := lockoutOpens s) (by rwa [same])
    rw [same] at trc
    obtain ⟨-, -, ⟨mode, -⟩, -⟩ := tractionEnd_spec (lockoutOpens s).trc false false false
      ((lockoutOpens s).setTrc (lockedOut (lockoutOpens s).trc))
    exact ⟨mode.trans (by rw [← lockoutNotice_eq, trc]; rfl), p, o, trc⟩
  · obtain ⟨p, o, trc⟩ := tractionEnd_trc (lockoutOpens s) (lockedOut (lockoutOpens s).trc) false false false
    rw [← lockoutNotice_eq, same, lockedOut, if_pos suspended] at trc
    rw [show u.trc = _ from trc]
    exact ⟨suspended, rfl, rfl, rfl⟩
  · obtain ⟨⟨d, n, mbr⟩, -⟩ := lockoutNotice_opened tripped
    rw [show u.mbr = _ from mbr]

/-! ### A retry (R92) -/

/-- What of MBR a retry has set, or left, as it lets the bridge drive again. -/
def retryView (m : Mbr) : Timer × Bool × Nat × Nat := (m.retryTimer, m.currentHold, m.tripLevel, m.overloads)

/-- The demand of a retry at a bridge that drives already: DRIVE keeps it driving, OFF opens it. -/
theorem handDemand_driving {v : State} (drives : v.mbr.bridge = .drive) (was : v.mbr.mode = .drive) :
    let m := (handDemand v false).mbr
    (demandedMode v.trc.state = .drive →
      m.bridge = .drive ∧ m.tripFreeTimer = v.mbr.tripFreeTimer ∧ retryView m = retryView v.mbr) ∧
    (demandedMode v.trc.state = .off → m.bridge = .off ∧ m.tripFreeTimer = none ∧ retryView m = retryView v.mbr) := by
  intro m
  let kept := demandKept v (demandedMode v.trc.state) v.trc.drive (demandedDuty v.trc)
  refine ⟨fun mode => ?_, fun mode => ?_⟩
  · have turned : (takeDirection kept).mbr.bridge = .drive ∧
        (takeDirection kept).mbr.tripFreeTimer = v.mbr.tripFreeTimer ∧
        retryView (takeDirection kept).mbr = retryView v.mbr := by
      simp only [takeDirection, show kept.mbr.bridge = .drive from drives, abandonGap_eq kept]
      exact ⟨rfl, rfl, rfl⟩
    by_cases changed : demandChanged v = true
    · have hands : m = (takeDemand v (demandedMode v.trc.state) v.trc.drive (demandedDuty v.trc) false).mbr :=
        congrArg State.mbr (if_pos (by simp [changed]))
      by_cases straight : v.trc.drive = v.mbr.drive
      · rw [hands, takeDemand_duty _ _ (mode.trans was.symm) (by simp [mode]) straight]
        exact ⟨drives, rfl, rfl⟩
      · rw [hands, takeDemand_turn _ _ (mode.trans was.symm) (by simp [mode]) straight]
        exact turned
    · have stands : m = v.mbr := congrArg State.mbr (if_neg (by simp [changed]))
      rw [stands]
      exact ⟨drives, rfl, rfl⟩
  · have changed : demandChanged v = true := by simp [demandChanged, mode, was]
    have hands : m = (takeDemand v (demandedMode v.trc.state) v.trc.drive (demandedDuty v.trc) false).mbr :=
      congrArg State.mbr (if_pos (by simp [changed]))
    rw [hands, takeDemand_mode _ _ _ (.inl (by simp [mode, was])), mode]
    simp only [takeMode, show (demandKept v .off v.trc.drive (demandedDuty v.trc)).mbr.bridge = .drive from drives,
      abandonGap_eq]
    exact ⟨rfl, rfl, rfl⟩

/-- TRC as a retry leaves it with V above 0 (R92). -/
theorem retryEntered_moving {t : Trc} (moving : 0 < t.ramp) :
    (retryEntered t).state = (if t.armed = false then .failsafe
      else if t.stated = t.drive then .running else .reversing) ∧
    (t.armed = false → (retryEntered t).duty = min (t.ramp / 64) (min 1023 t.dcap) ∧ (retryEntered t).integral = 0) := by
  cases armed : t.armed
  · have eq : retryEntered t = { openLoop t with state := .failsafe, load := 0, loaded := false } := by
      simp [retryEntered, armed, failsafeEntered, moving.ne']
    rw [eq]
    exact ⟨rfl, fun _ => ⟨rfl, rfl⟩⟩
  · refine ⟨?_, nofun⟩
    by_cases agree : t.stated = t.drive <;> simp [retryEntered, armed, agree, idleOrRunning, moving.ne']

/-- TRC as a retry leaves it at rest with nothing to do (R92). -/
theorem retryEntered_rest {t : Trc} (rest : t.ramp = 0) (armed : t.armed = true) (target : t.target = 0)
    (agree : t.stated = t.drive) : (retryEntered t).state = .idle := by
  simp [retryEntered, armed, agree, idleOrRunning, rest, target]

theorem retryEntered_mode (t : Trc) : demandedMode (retryEntered t).state = .drive ∨
    demandedMode (retryEntered t).state = .off := by
  rcases retryEntered_state t with (state | state | state | state) | ⟨state, -⟩ <;> rw [state] <;> decide

end Sys2Proof.Laws
end

section
/-!
PROOFS. The judgement of a trip, and the end of the retry wait (R92, R93, R110 to R113).
-/
namespace Sys2Proof.Laws

open Sys2Proof.Machine

/-! ### The judgement (R110 to R112) -/

/-- The injected conversion completes: the trip is judged by the code that it has read. -/
theorem conversionDone_motor {s : State} {code : BitVec 12}
    (converts : s.msq.converting = some ⟨.motorI, .inject, .mbr, false⟩) :
    ∃ q, conversionDone s code = arbiterActs
      (judgeTrip ((s.setMbr (motorRead s.mbr code)).setMsq q) (motorCode s.mbr code).toNat) := by
  refine ⟨conversionTaken s.msq ⟨.motorI, .inject, .mbr, false⟩ (motorCode s.mbr code).toNat, ?_⟩
  simp only [conversionDone, converts]
  rfl

/-- A trip that is neither short nor the fourth overload. -/
theorem judgeTrip_below {s : State} {code : Nat} (long : ¬s.shortLevel ≤ code) (below : ¬4 ≤ s.mbr.overloads + 1) :
    judgeTrip s code = s.setMbr { s.mbr with
      awaited := false
      overloads := s.mbr.overloads + 1
      retryTimer := if s.mbr.bridge = .tripped then some 100000 else s.mbr.retryTimer } :=
  (if_neg long).trans (judgeOverload_below (s := s.setMbr { s.mbr with awaited := false }) (Nat.not_le.mp below))

/-- A short, or the fourth overload, is a lockout with the count at 0. -/
theorem judgeTrip_lockout {s : State} {code : Nat} (lockout : s.shortLevel ≤ code ∨ 4 ≤ s.mbr.overloads + 1) :
    judgeTrip s code = lockoutNotice (lockoutOpens (s.setMbr { s.mbr with
      awaited := false, overloads := 0, lockoutShort := s.mbr.lockoutShort || decide (s.shortLevel ≤ code) })) := by
  by_cases short : s.shortLevel ≤ code
  · refine (if_pos short).trans ?_
    simp only [short, decide_true, Bool.or_true]
    rfl
  · refine (if_neg short).trans ?_
    simp only [short, decide_false, Bool.or_false]
    exact judgeOverload_fourth (s := s.setMbr { s.mbr with awaited := false }) (lockout.resolve_left short)

theorem sameBut_judgeTrip (s : State) (m : Mbr) (q : Msq) (code : Nat) :
    SameBut [.fnu, .trc, .mbr, .msq] s (arbiterActs (judgeTrip ((s.setMbr m).setMsq q) code)) := by
  intro p hp
  cases p <;> simp_all [partSame]

/-! ### The retry (R92, R113) -/

/-- The bridge as the retry lets it drive again, before traction hears of it. -/
def retried (s : State) : State := bridgeStart (s.setMbr { s.mbr with retryTimer := none })

theorem retryExpiry_eq {s : State} (tripped : s.mbr.bridge = .tripped) (timer : s.mbr.retryTimer ≠ none) :
    retryExpiry s = retryNotice (retried s) :=
  if_pos (by simp [tripped, Option.isSome_iff_ne_none, timer])

/-- Traction goes on where the bridge drives: the demand that its new state gives is taken by the bridge. -/
theorem retryNotice_spec {s : State} (tripped : s.trc.state = .tripped) (drives : s.mbr.bridge = .drive)
    (mode : s.mbr.mode = .drive) :
    let u := retryNotice s
    (∃ p o, u.trc = { endedBy false false s (retryEntered s.trc) with published := p, outstanding := o }) ∧
      retryView u.mbr = retryView s.mbr ∧
      (demandedMode (retryEntered s.trc).state = .drive →
        u.mbr.bridge = .drive ∧ u.mbr.tripFreeTimer = s.mbr.tripFreeTimer) ∧
      (demandedMode (retryEntered s.trc).state = .off → u.mbr.bridge = .off ∧ u.mbr.tripFreeTimer = none) := by
  have eq : retryNotice s = tractionEnd s.trc false false false (s.setTrc (retryEntered s.trc)) := if_pos tripped
  obtain ⟨v, p, hands, mbr, -, -, trc⟩ := tractionEnd_handed s (retryEntered s.trc) false false false
  obtain ⟨drive, off⟩ := handDemand_driving (v := v) (by rwa [mbr]) (by rwa [mbr])
  have state : v.trc.state = (retryEntered s.trc).state := by rw [trc]; rfl
  rw [state, mbr] at drive off
  refine ⟨?_, ?_, ?_⟩
  · rw [eq]
    exact tractionEnd_trc s (retryEntered s.trc) false false false
  · rw [eq, hands]
    rcases retryEntered_mode s.trc with h | h
    · obtain ⟨-, -, view⟩ := drive h
      exact view
    · obtain ⟨-, -, view⟩ := off h
      exact view
  · rw [eq, hands]
    refine ⟨fun h => ?_, fun h => ?_⟩
    · obtain ⟨bridge, timer, -⟩ := drive h
      exact ⟨bridge, timer⟩
    · obtain ⟨bridge, timer, -⟩ := off h
      exact ⟨bridge, timer⟩

/-- What the judgement of a trip leaves at MBR and TRC, by whether it is a lockout. -/
theorem judgeTrip_spec (s : State) (code : Nat) :
    let lockout := s.shortLevel ≤ code ∨ 4 ≤ s.mbr.overloads + 1
    let u := judgeTrip s code
    u.mbr.awaited = false ∧ u.mbr.lockoutShort = (s.mbr.lockoutShort || decide (s.shortLevel ≤ code)) ∧
      u.mbr.overloads = (if lockout then 0 else s.mbr.overloads + 1) ∧
      (lockout → s.trc.state ≠ .suspended → u.mbr.mode = .off ∧ ∃ p o, u.trc =
        { haltedIn s.trc .lockout with drive := s.trc.stated, published := p, outstanding := o }) ∧
      (lockout → s.trc.state = .suspended →
        u.trc.state = .suspended ∧ u.trc.armed = false ∧ u.trc.step = 0 ∧ u.trc.target = 0) ∧
      (lockout → s.mbr.bridge = .tripped → u.mbr.bridge = .off) ∧
      (¬lockout → u.trc = s.trc ∧ u.fnu = s.fnu ∧ u.mbr.bridge = s.mbr.bridge ∧
        u.mbr.retryTimer = if s.mbr.bridge = .tripped then some 100000 else s.mbr.retryTimer) := by
  intro lockout u
  by_cases locks : lockout
  · obtain ⟨counts, halted, suspended, opens⟩ := lockout_spec (s.setMbr { s.mbr with
      awaited := false, overloads := 0, lockoutShort := s.mbr.lockoutShort || decide (s.shortLevel ≤ code) })
    rw [← judgeTrip_lockout locks] at counts halted suspended opens
    simp only [tripCounts, Prod.mk.injEq] at counts
    obtain ⟨awaited, short, overloads⟩ := counts
    exact ⟨awaited, short, overloads.trans (if_pos locks).symm, fun _ => halted, fun _ => suspended, fun _ => opens,
      fun clear => absurd locks clear⟩
  · obtain ⟨long, below⟩ := not_or.mp locks
    rw [show u = _ from judgeTrip_below long below]
    refine ⟨rfl, ?_, (if_neg locks).symm, fun locked => absurd locked locks, fun locked => absurd locked locks,
      fun locked => absurd locked locks, fun _ => ⟨rfl, rfl, rfl, rfl⟩⟩
    simp only [setMbr_mbr, long, decide_false, Bool.or_false]

/-- The bridge as the retry lets it drive: the rest of the retry finds TRC as it was. -/
theorem retried_spec (s : State) : (retried s).trc = s.trc ∧ (retried s).mbr.bridge = .drive ∧
    (retried s).mbr.mode = s.mbr.mode ∧ (retried s).mbr.applied = s.mbr.demanded ∧
    (retried s).mbr.tripFreeTimer = some 2000000 ∧
    retryView (retried s).mbr = (none, false, s.tripLevelSetting, s.mbr.overloads) :=
  ⟨rfl, rfl, rfl, rfl, rfl, rfl⟩

theorem sameBut_retryExpiry (s : State) : SameBut [.fnu, .trc, .mbr, .msq] s (retryExpiry s) := by
  intro p hp
  cases p <;> simp_all [partSame]

/-- Settles O40: a trip is judged by the code read, and the retry wait ends with the bridge driving before traction goes on. -/
theorem tripsAreJudgedAndRetried : Obligations.TripsAreJudgedAndRetried := by
  unfold Obligations.TripsAreJudgedAndRetried
  refine ⟨fun s code runs converts => ?_, fun s runs tripped timer mode => ?_⟩
  · intro read lockout
    obtain ⟨q, done⟩ := conversionDone_motor (code := code) converts
    obtain ⟨awaited, short, overloads, halted, suspended, opens, clear⟩ :=
      judgeTrip_spec ((s.setMbr (motorRead s.mbr code)).setMsq q) read.toNat
    refine ⟨conversionDone s code, settled_running runs, done ▸ sameBut_judgeTrip s _ q _, ?_⟩
    rw [done]
    refine ⟨awaited, short, overloads, fun locks moving => ?_, suspended, opens, clear⟩
    obtain ⟨off, p, o, trc⟩ := halted locks moving
    have acts (u : State) : (arbiterActs u).trc = u.trc := rfl
    rw [acts, show (judgeTrip _ (motorCode s.mbr code).toNat).trc = _ from trc]
    exact ⟨rfl, rfl, rfl, rfl, rfl, rfl, rfl, off⟩
  · have expires : exec .retryTimerExpiry s = .next (fnuSettle (retryExpiry s)) := settled_running runs
    refine ⟨retryExpiry s, expires, sameBut_retryExpiry s, ?_⟩
    rw [retryExpiry_eq tripped timer]
    obtain ⟨same, drive, sameMode, applied, tripFree, view⟩ := retried_spec s
    by_cases other : s.trc.state = .tripped
    case neg =>
      have stands : retryNotice (retried s) = retried s := if_neg (same ▸ other)
      simp only [retryView, Prod.mk.injEq] at view
      obtain ⟨retryTimer, hold, level, overloads⟩ := view
      rw [stands]
      exact ⟨retryTimer, hold, level, overloads, fun _ => ⟨same, drive, applied, tripFree⟩, fun was => absurd was other,
        fun was => absurd was other⟩
    case pos =>
      obtain ⟨⟨p, o, trc⟩, kept, drives, opens⟩ :=
        retryNotice_spec (s := retried s) (same ▸ other) drive (sameMode.trans mode)
      rw [same] at trc drives opens
      rw [tripFree] at drives
      rw [view] at kept
      simp only [retryView, Prod.mk.injEq] at kept
      obtain ⟨retryTimer, hold, level, overloads⟩ := kept
      obtain ⟨step, stated, target, ramp, drive, armed, dcap⟩ := retryEntered_kept s.trc
      refine ⟨retryTimer, hold, level, overloads, fun moved => absurd other moved, fun _ moving => ?_,
        fun _ rest on idle agree => ?_⟩
      · obtain ⟨state, duty⟩ := retryEntered_moving (t := s.trc) moving
        have driving : demandedMode (retryEntered s.trc).state = .drive := by
          rw [state]
          (repeat' split) <;> rfl
        obtain ⟨bridge, tripFree⟩ := drives driving
        rw [trc]
        exact ⟨bridge, tripFree, ramp, armed, step, target, (if_neg (ramp ▸ moving.ne')).trans drive, state, duty⟩
      · have state := retryEntered_rest (t := s.trc) rest on idle agree
        obtain ⟨bridge, tripFree⟩ := opens (congrArg demandedMode state)
        rw [trc]
        exact ⟨state, bridge, tripFree⟩

end Sys2Proof.Laws
end

section
/-!
SUPPORT. HOLD as the four receivers see it (R96, R152, R173, R179), the caps that it brings (R189), and what FNU's acts leave of it.
-/
namespace Sys2Proof.Laws

open Sys2Proof.Machine

/-! ### Traction at rest in SUSPENDED (R96) -/

/-- TRC is SUSPENDED at rest with the latch, the step and the stated direction of `x`, and the bridge, where `safe` holds, is OFF
with nothing applied. -/
structure SuspendedAs (x : Trc) (safe : Prop) (t : State) : Prop where
  state : t.trc.state = .suspended
  ramp : t.trc.ramp = 0
  duty : t.trc.duty = 0
  armed : t.trc.armed = x.armed
  step : t.trc.step = x.step
  stated : t.trc.stated = x.stated
  bridge : safe → t.mbr.bridge = .off ∧ t.mbr.applied = 0

section
variable {x : Trc} {safe : Prop} {s : State}

theorem SuspendedAs.congr (h : SuspendedAs x safe s) {t : State} (trc : driving t.trc = driving s.trc)
    (mbr : bridging t.mbr = bridging s.mbr) : SuspendedAs x safe t := by
  obtain ⟨step, stated, -, ramp, -, armed, -, duty, -, -, state, -⟩ := driving_kept trc
  simp only [bridging, Prod.mk.injEq] at mbr
  obtain ⟨bridge, -, applied⟩ := mbr
  exact ⟨state.trans h.state, ramp.trans h.ramp, duty.trans h.duty, armed.trans h.armed, step.trans h.step,
    stated.trans h.stated, fun holds => by rw [bridge, applied]; exact h.bridge holds⟩

/-- An event that leaves TRC SUSPENDED at rest leaves the bridge closed too. -/
theorem SuspendedAs.event (h : SuspendedAs x safe s) {t : Trc} (state : t.state = s.trc.state) (ramp : t.ramp = s.trc.ramp)
    (duty : t.duty = 0) (armed : t.armed = s.trc.armed) (step : t.step = s.trc.step) (stated : t.stated = s.trc.stated)
    (tick work atOnce : Bool) : SuspendedAs x safe (tractionEnd s.trc tick work atOnce (s.setTrc t)) := by
  obtain ⟨p, o, trc⟩ := tractionEnd_trc s t tick work atOnce
  have off : demandedMode t.state = .off := by rw [state, h.state]; rfl
  refine ⟨?_, ?_, ?_, ?_, ?_, ?_, fun holds => ?_⟩
  case refine_7 =>
    obtain ⟨closed, applied⟩ := h.bridge holds
    obtain ⟨⟨d, mbr⟩, -⟩ := tractionEnd_kept (t := t) (.inl ⟨off, closed⟩) tick work atOnce
    rw [mbr]
    exact ⟨closed, applied⟩
  all_goals rw [trc]
  · exact state.trans h.state
  · exact ramp.trans h.ramp
  · exact duty
  · exact armed.trans h.armed
  · exact step.trans h.step
  · exact stated.trans h.stated

/-- HOLD suspends traction, and opens a bridge that was in keeping with its demand. -/
theorem suspendedAs_tractionPower (s : State) : SuspendedAs s.trc (BridgeSafe s) (tractionPower s .hold) := by
  obtain ⟨p, o, trc⟩ := tractionEnd_trc s { rampStopped s.trc with state := .suspended } false false false
  refine ⟨?_, ?_, ?_, ?_, ?_, ?_, fun safe => ?_⟩
  case refine_7 =>
    exact tractionEnd_off (t := { rampStopped s.trc with state := .suspended }) rfl safe false false false
  all_goals
    rw [tractionPower, trc]
    rfl

theorem SuspendedAs.tractionCap (h : SuspendedAs x safe s) (dcap : Nat) : SuspendedAs x safe (tractionCap s dcap) := by
  obtain ⟨step, stated, -, ramp, -, armed, -, -, state, -⟩ := capTaken_kept s dcap
  rw [tractionCap_eq]
  exact h.event state ramp (by rw [capTaken_duty, h.duty, Nat.zero_min]) armed step stated _ _ _

theorem SuspendedAs.retarget (h : SuspendedAs x safe s) : SuspendedAs x safe (retarget s) := by
  have state : retargetedState s = s.trc.state := by simp only [retargetedState, h.state]
  rw [retarget_eq]
  refine h.event ?_ ?_ ?_ ?_ ?_ ?_ false false false <;> rw [retargeted_eq]
  · exact state
  · exact h.duty

theorem SuspendedAs.tractionShunt (h : SuspendedAs x safe s) (on : Bool) : SuspendedAs x safe (tractionShunt s on) := by
  have set : SuspendedAs x safe (s.setTrc { s.trc with shunt := on }) := h.congr rfl rfl
  exact set.retarget

theorem SuspendedAs.deliverEntry (h : SuspendedAs x safe s) (new : Outputs) (e : MapEntry) (on : Bool) :
    SuspendedAs x safe (deliverEntry new e on s) := by
  have set (o : Outputs) : SuspendedAs x safe (setDelivered s o) := h.congr rfl rfl
  rcases action : e.action with _ | (⟨n, d⟩ | c | _ | _ | _ | _) <;> simp only [Machine.deliverEntry, action]
  case none => exact h
  case some.lamp | some.smoke | some.mute => exact h.congr (by simp) (by simp)
  case some.cue => split <;> exact h.congr (by simp) (by simp)
  case some.shunt =>
    simp only [deliverShunt]
    split
    · exact h
    · exact (set _).tractionShunt _
  case some.momentumOff =>
    simp only [deliverMomentum]
    split
    · exact h
    · exact (set _).congr rfl rfl

theorem SuspendedAs.fnuSettle (h : SuspendedAs x safe s) : SuspendedAs x safe (fnuSettle s) :=
  fnuSettle_induction (fun _ _ h => h.congr rfl rfl) (fun new e on _ h => h.deliverEntry new e on) h

end

/-! ### The power state held by the other receivers (R152, R173, R179) -/

/-- The power state as SND, SMK and LMP hold it. -/
def powersHeld (s : State) : PowerState × PowerState × PowerState := (s.snd.power, s.smk.power, s.lmp.power)

section
variable (s : State)

@[simp] theorem poolContest_power (c : Nat) : (poolContest s c).snd.power = s.snd.power := by
  simp only [poolContest, pushPreempted]
  (repeat' split) <;> rfl

@[simp] theorem poolPlace_power (c : Nat) : (poolPlace s c).snd.power = s.snd.power := by
  simp only [poolPlace]
  split
  · rfl
  · exact poolContest_power _ c

@[simp] theorem soundTrigger_power (c : Nat) : (soundTrigger s c).snd.power = s.snd.power := by
  simp only [soundTrigger]
  (repeat' split)
  · rfl
  · exact poolPlace_power s c
  · rfl

@[simp] theorem soundRelease_power (c : Nat) : (soundRelease s c).snd.power = s.snd.power := by
  simp only [soundRelease]
  split <;> rfl

@[simp] theorem soundMute_power (on : Bool) : (soundMute s on).snd.power = s.snd.power := by
  simp only [soundMute, engineWork]
  (repeat' split) <;> rfl

@[simp] theorem smokeEnable_power (on : Bool) : (smokeEnable s on).smk.power = s.smk.power := by
  simp only [smokeEnable, smokeEnableOn, smokeEnableOff]
  (repeat' split) <;> simp [smokeRequest, smokeSuspended]

@[simp] theorem lampDemanded_power (n : Nat) (d : Option LampDemand) : (lampDemanded s n d).lmp.power = s.lmp.power := rfl

theorem deliverEntry_powers (new : Outputs) (e : MapEntry) (on : Bool) :
    powersHeld (deliverEntry new e on s) = powersHeld s := by
  rcases action : e.action with _ | (⟨n, d⟩ | c | _ | _ | _ | _) <;>
    simp only [deliverEntry, action, deliverLamp, deliverSmoke, deliverMute, deliverShunt, deliverMomentum]
  all_goals
    (try split) <;> simp [powersHeld, setDelivered]

end

theorem fnuSettle_powers (s : State) : powersHeld (fnuSettle s) = powersHeld s :=
  fnuSettle_induction (P := fun t => powersHeld t = powersHeld s) (fun _ _ h => h)
    (fun new e on _ h => (deliverEntry_powers _ new e on).trans h) rfl

/-! ### The announcement of HOLD at SND, SMK and LMP (R152, R173, R179) -/

section
variable {s t : State}

theorem smokePower_smk_congr (smk : t.smk = s.smk) (active : t.tbs.active = s.tbs.active) (p : PowerState) :
    (smokePower t p).smk = (smokePower s p).smk := by
  have idle : t.fanIdle = s.fanIdle := setting1_congr active 43
  simp only [smokePower, smokeEnd_keeps, setSmk_smk, smokeFanAt, smk, idle]

theorem smokeCap_zero_smk_congr (smk : t.smk = s.smk) (active : t.tbs.active = s.tbs.active) :
    (smokeCap t 0).smk = (smokeCap s 0).smk := by
  have idle : t.fanIdle = s.fanIdle := setting1_congr active 43
  simp [smokeCap, smk, idle]

theorem lampsPower_hold (s : State) : (lampsPower s .hold).lmp =
    { s.lmp with power := .hold, outputs := s.lmp.outputs.map lampDarkened } := rfl

/-- An engine that is not to run: it stops, or stays OFF (R152). -/
theorem engineFollows_off (s : State) (moving : Bool) : engineFollows s moving false =
    if false = s.snd.on then s.snd else { soundStopped s.snd with on := false } := rfl

theorem engineFollows_cap (s : State) (moving : Bool) : (engineFollows s moving false).cap = s.snd.cap := by
  rw [engineFollows_off]
  split <;> rfl

theorem smokePower_power (s : State) (p : PowerState) : (smokePower s p).smk.power = p := by
  simp only [smokePower, smokeEnd_keeps, setSmk_smk]
  (repeat' split) <;> rfl

theorem smokeCap_power (s : State) (hmax : Nat) : (smokeCap s hmax).smk.power = s.smk.power := by
  simp only [smokeCap, smokeEnd_keeps, setSmk_smk]
  (repeat' split) <;> rfl

theorem soundPower_hold (s : State) (moving : Bool) : (soundPower s .hold).snd =
    { engineFollows s moving false with power := .hold } := by
  have off : engineOn s.snd.mute .hold = false := by simp [engineOn]
  rw [engineFollows_off]
  simp only [soundPower, engineWork, setSnd_snd, off]
  split <;> rfl

end

/-- HOLD entered: PPM and the announcement at its four receivers (R185, R186). -/
theorem enterHold_spec (s : State) (moving : Bool) :
    let u := enterHold s
    u.ppm = { s.ppm with power := .hold, coastTimer := none } ∧ SuspendedAs s.trc (BridgeSafe s) u ∧
      u.trc.target = s.trc.target ∧ u.trc.dcap = s.trc.dcap ∧
      u.snd = { engineFollows s moving false with power := .hold } ∧ u.smk = (smokePower s .hold).smk ∧
      u.lmp = (lampsPower s .hold).lmp := by
  intro u
  let w := s.setPpm { s.ppm with power := .hold, coastTimer := none }
  let v := tractionPower w .hold
  have eq : u = publish (lampsPower (soundPower (smokePower v .hold) .hold) .hold) (.coasting false) := rfl
  have suspended : SuspendedAs s.trc (BridgeSafe s) v := suspendedAs_tractionPower w
  obtain ⟨p, o, trc⟩ := tractionEnd_trc w { rampStopped w.trc with state := .suspended } false false false
  have trc : v.trc = _ := trc
  have same : u.trc = v.trc ∧ u.mbr = v.mbr := by simp [eq]
  obtain ⟨sameTrc, sameMbr⟩ := same
  have kept : v.snd = s.snd ∧ v.smk = s.smk ∧ v.lmp = s.lmp ∧ v.tbs = s.tbs := by simp [v, w]
  obtain ⟨snd, smk, lmp, tbs⟩ := kept
  refine ⟨by simp [eq, v, w], suspended.congr (by rw [sameTrc]) (by rw [sameMbr]), ?_, ?_, ?_, ?_, ?_⟩
  · rw [sameTrc, trc]
    rfl
  · rw [sameTrc, trc]
    rfl
  · have sound : u.snd = (soundPower (smokePower v .hold) .hold).snd := by simp [eq]
    rw [sound, soundPower_hold _ moving]
    simp only [engineFollows_off, smokePower_keeps, snd]
  · have smoke : u.smk = (smokePower v .hold).smk := by simp [eq]
    rw [smoke]
    exact smokePower_smk_congr smk (by rw [tbs]) .hold
  · have lamps : u.lmp = (lampsPower (soundPower (smokePower v .hold) .hold) .hold).lmp := by simp [eq]
    rw [lamps, lampsPower_hold, lampsPower_hold]
    simp [lmp]

/-! ### The caps of HOLD (R189) -/

section
variable {s : State} (hold : s.ppm.power = .hold)
include hold

theorem publishDcap_hold : publishDcap s =
    if s.ppm.dcap = 0 then s else tractionCap (s.setPpm { s.ppm with dcap := 0 }) 0 := by
  have now : dcapNow s = 0 := by simp [dcapNow, hold]
  simp only [publishDcap, now, eq_comm (a := 0)]

theorem publishHmax_hold : publishHmax s =
    if s.ppm.hmax = 0 then s else smokeCap (s.setPpm { s.ppm with hmax := 0 }) 0 := by
  have now : hmaxNow s = 0 := by simp [hmaxNow, hold]
  simp only [publishHmax, now, eq_comm (a := 0)]

theorem publishSoundCap_hold : publishSoundCap s = (s.setPpm { s.ppm with soundCap := 0 }).setSnd
    { s.snd with cap := if s.ppm.soundCap = 0 then s.snd.cap else 0 } := by
  have now : soundCapNow s = 0 := by simp [soundCapNow, hold]
  simp only [publishSoundCap, now, eq_comm (a := 0)]
  split
  case isTrue zero =>
    have same : s.ppm = { s.ppm with soundCap := 0 } := by rw [← zero]
    rw [← same]
    rfl
  case isFalse => rfl

theorem publishDcap_ppm : (publishDcap s).ppm = { s.ppm with dcap := 0 } := by
  rw [publishDcap_hold hold]
  split
  case isTrue zero => rw [← zero]
  case isFalse => simp

theorem publishHmax_spec : (publishHmax s).ppm = { s.ppm with hmax := 0 } ∧
    (publishHmax s).smk = if s.ppm.hmax = 0 then s.smk else (smokeCap s 0).smk := by
  rw [publishHmax_hold hold]
  split
  case isTrue zero => exact ⟨by rw [← zero], rfl⟩
  case isFalse => exact ⟨by simp, smokeCap_zero_smk_congr rfl rfl⟩

/-- In HOLD the caps are 0, each published if it was not. -/
theorem powerEnd_hold :
    let u := powerEnd s
    u.ppm = { s.ppm with dcap := 0, hmax := 0, soundCap := 0 } ∧ u.trc = (publishDcap s).trc ∧
      u.mbr = (publishDcap s).mbr ∧ u.smk = (if s.ppm.hmax = 0 then s.smk else (smokeCap s 0).smk) ∧
      u.snd = { s.snd with cap := if s.ppm.soundCap = 0 then s.snd.cap else 0 } ∧ u.lmp = s.lmp := by
  intro u
  have duty := publishDcap_ppm hold
  have holdDuty : (publishDcap s).ppm.power = .hold := by rw [duty]; exact hold
  obtain ⟨heat, smoke⟩ := publishHmax_spec holdDuty
  rw [duty] at heat smoke
  have holdHeat : (publishHmax (publishDcap s)).ppm.power = .hold := by rw [heat]; exact hold
  have sound := publishSoundCap_hold holdHeat
  rw [heat] at sound
  have eq : u = _ := sound
  rw [eq]
  refine ⟨rfl, by simp, by simp, smoke.trans ?_, by simp, by simp⟩
  have same : (smokeCap (publishDcap s) 0).smk = (smokeCap s 0).smk := smokeCap_zero_smk_congr (by simp) (by simp)
  simp [same]

end

end Sys2Proof.Laws
end

section
/-!
PROOFS. The timers of PPM (R96, R152, R173, R179, R185 to R188).
-/
namespace Sys2Proof.Laws

open Sys2Proof.Machine

section
variable {s : State}

theorem coastExpiry_eq (timer : s.ppm.coastTimer ≠ none) (coast : s.ppm.power = .coast) :
    coastExpiry s = powerEnd (enterHold s) :=
  if_pos (by simp [coast, Option.isSome_iff_ne_none, timer])

theorem tractionCap_kept (s : State) (dcap : Nat) :
    (tractionCap s dcap).trc.target = s.trc.target ∧ (tractionCap s dcap).trc.dcap = dcap := by
  obtain ⟨-, -, target, -, -, -, -, -, -, cap⟩ := capTaken_kept s dcap
  obtain ⟨p, o, trc⟩ := tractionEnd_trc s (capTaken s dcap) false true (dcap < s.trc.dcap)
  rw [tractionCap_eq, trc]
  exact ⟨target, cap⟩

/-- The end of the coast at TRC and MBR: SUSPENDED at rest, with the cap that was published at 0. -/
theorem publishDcap_suspended {x : Trc} {safe : Prop} (hold : s.ppm.power = .hold) (h : SuspendedAs x safe s) :
    SuspendedAs x safe (publishDcap s) ∧ (publishDcap s).trc.target = s.trc.target ∧
      (publishDcap s).trc.dcap = if s.ppm.dcap = 0 then s.trc.dcap else 0 := by
  rw [publishDcap_hold hold]
  split
  · exact ⟨h, rfl, rfl⟩
  · have set : SuspendedAs x safe (s.setPpm { s.ppm with dcap := 0 }) := h.congr rfl rfl
    obtain ⟨target, cap⟩ := tractionCap_kept (s.setPpm { s.ppm with dcap := 0 }) 0
    exact ⟨set.tractionCap 0, target, cap⟩

/-- The part once HOLD has been entered, announced, and its caps published. -/
theorem powerEnd_enterHold {s u : State} (final : u = powerEnd (enterHold s)) :
    u.ppm = { s.ppm with power := .hold, coastTimer := none, dcap := 0, hmax := 0, soundCap := 0 } ∧
      SuspendedAs s.trc (BridgeSafe s) u ∧ Announced s u .hold ∧ powersHeld u = (.hold, .hold, .hold) := by
  have snd (moving : Bool) : (enterHold s).snd = { engineFollows s moving false with power := .hold } := by
    obtain ⟨-, -, -, -, snd, -⟩ := enterHold_spec s moving
    exact snd
  obtain ⟨ppm, suspended, target, dcap, -, smk, lmp⟩ := enterHold_spec s true
  have active : (enterHold s).tbs.active = s.tbs.active := by simp
  generalize enterHold s = e at *
  have hold : e.ppm.power = .hold := by rw [ppm]
  obtain ⟨ppm', trc', mbr', smk', snd', lmp'⟩ := powerEnd_hold hold
  rw [← final] at ppm' trc' mbr' smk' snd' lmp'
  obtain ⟨ends, target', dcap'⟩ := publishDcap_suspended hold suspended
  have still : SuspendedAs s.trc (BridgeSafe s) u := ends.congr (congrArg driving trc') (congrArg bridging mbr')
  rw [ppm] at ppm' smk' snd' dcap'
  have sndEnd (moving : Bool) : u.snd = { engineFollows s moving false with
      power := .hold, cap := if s.ppm.soundCap = 0 then s.snd.cap else 0 } := by
    refine snd'.trans ?_
    rw [snd moving]
    simp only [engineFollows_cap]
  have smkEnd : u.smk = if s.ppm.hmax = 0 then (smokePower s .hold).smk else (smokeCap (smokePower s .hold) 0).smk := by
    have heat : (smokeCap e 0).smk = (smokeCap (smokePower s .hold) 0).smk :=
      smokeCap_zero_smk_congr smk (by simp [active])
    refine smk'.trans ?_
    rw [heat, smk]
  have dcapEnd : u.trc.dcap = if s.ppm.dcap = 0 then s.trc.dcap else 0 := by
    rw [← dcap]
    exact (congrArg Trc.dcap trc').trans dcap'
  have lmpEnd : u.lmp = (lampsPower s .hold).lmp := lmp'.trans lmp
  have silent : (!s.snd.mute && (decide (PowerState.hold = .normal) || decide (PowerState.hold = .coast))) = false := by
    simp
  refine ⟨ppm', still, ⟨still.state, still.ramp, still.armed, still.step, still.stated,
    (congrArg Trc.target trc').trans (target'.trans target), ?_, fun _ => ?_, ?_, lmpEnd⟩, ?_⟩
  · rw [ppm', dcapEnd]
    simp only [eq_comm (a := 0)]
  · rw [ppm', silent]
    simp only [eq_comm (a := 0)]
    exact sndEnd _
  · rw [ppm', smkEnd]
    simp only [eq_comm (a := 0)]
  · have smkPower : u.smk.power = .hold := by
      rw [smkEnd]
      split
      · exact smokePower_power s .hold
      · exact (smokeCap_power _ 0).trans (smokePower_power s .hold)
    rw [powersHeld, sndEnd true, smkPower, lmpEnd]
    rfl

end

/-- The shed level after the under time: it falls by 1 if it may (R187, R188). -/
theorem shedMayFall_shed (p : Ppm) : (if shedMayFall p then p.shed - 1 else p.shed) =
    if p.shed = 0 ∨ p.hot = true ∧ p.shed ≤ 2 then p.shed else p.shed - 1 := by
  by_cases stays : p.shed = 0 ∨ p.hot = true ∧ p.shed ≤ 2
  · rw [if_pos stays, if_neg]
    rcases stays with zero | ⟨hot, low⟩
    · simp [shedMayFall, zero]
    · simp [shedMayFall, hot, low]
  · rw [if_neg stays, if_pos]
    obtain ⟨above, cool⟩ := not_or.mp stays
    cases hot : p.hot <;> simp_all [shedMayFall, Nat.pos_iff_ne_zero]

/-- Settles O55: the coast ends in HOLD with its announcement and its caps, which FNU's acts leave standing; each of the other
timers makes its own change and ends an event at PPM. -/
theorem powerTimersExpire : Obligations.PowerTimersExpire := by
  unfold Obligations.PowerTimersExpire
  intro s runs
  refine ⟨fun stopped => ?_, fun timer coast => ?_, ?_, ?_, ?_⟩
  · have stands : coastExpiry s = s := if_neg (by rcases stopped with h | h <;> simp [h])
    exact (settled_running runs).trans (by rw [stands])
  · have expires : exec .coastTimerExpiry s = .next (fnuSettle (coastExpiry s)) := settled_running runs
    rw [coastExpiry_eq timer coast] at expires
    obtain ⟨ppm, suspended, announced, powers⟩ := powerEnd_enterHold (s := s) rfl
    have settled := suspended.fnuSettle
    rw [← fnuSettle_powers] at powers
    simp only [powersHeld, Prod.mk.injEq] at powers
    obtain ⟨snd, smk, lmp⟩ := powers
    refine ⟨_, expires, ?_, ?_, settled.state, settled.ramp, settled.duty, settled.armed, settled.step, settled.stated,
      fun _ => settled.bridge, snd, smk, lmp, _, rfl, announced⟩
    · intro p hp
      cases p <;> simp_all [partSame]
    · exact (by simp : (fnuSettle (powerEnd (enterHold s))).ppm = (powerEnd (enterHold s)).ppm).trans ppm
  all_goals refine (settled_running runs).trans (congrArg (fun u => Host.Outcome.next (fnuSettle u)) ?_)
  · cases timer : s.ppm.bufferTimer
    · exact if_neg (by simp [timer])
    · exact if_pos (by simp [timer])
  · cases timer : s.ppm.overTimer
    · exact if_neg (by simp [timer])
    · exact if_pos (by simp [timer])
  · cases timer : s.ppm.underTimer
    · exact if_neg (by simp [timer])
    · have shed := congrArg (fun n => powerEnd (s.setPpm { s.ppm with shed := n, underTimer := some underTime }))
        (shedMayFall_shed s.ppm)
      exact (if_pos (by simp [timer])).trans (shed.trans (if_neg nofun).symm)

end Sys2Proof.Laws
end

section
/-!
SUPPORT. The arbiter and the requests of MSQ: what each can do, and the law of the sequencer through every one of them (R118, R121 to
R130).
-/
namespace Sys2Proof.Laws

open Sys2Proof.Machine

/-! ### The arbiter (R118) -/

section
variable {q : Msq}

theorem arbitrate_busy (busy : q.converting ≠ none) : arbitrate q = q := by
  simp only [arbitrate]
  split
  · rfl
  · contradiction

theorem arbitrate_inject (idle : q.converting = none) {r : Inject} (waits : q.slot = .waiting r) :
    arbitrate q = { q with slot := .converting r, converting := some ⟨r.channel, .inject, r.requester, false⟩ } := by
  simp only [arbitrate, idle, arbiterStart, waits]

section
variable (idle : q.converting = none) (free : ∀ r, q.slot ≠ .waiting r)
include idle free

theorem arbitrate_gap (pending : q.gap = .pending) :
    arbitrate q = { q with gap := .converting, converting := some ⟨.bemf, .gap, .trc, false⟩ } := by
  cases slot : q.slot
  case waiting r => exact absurd slot (free r)
  all_goals simp only [arbitrate, idle, arbiterStart, slot, pending, if_true]

variable (other : q.gap ≠ .pending)
include other

theorem arbitrate_queue {r : Request} {rest : List Request} (queue : q.queue = r :: rest) :
    arbitrate q = { q with queue := rest, converting := some ⟨r.channel, .queue, r.requester, false⟩ } := by
  cases slot : q.slot
  case waiting r => exact absurd slot (free r)
  all_goals simp only [arbitrate, idle, arbiterStart, slot, if_neg other, queue]

variable (empty : q.queue = [])
include empty

theorem arbitrate_scan {c : Channel} {rest : List Channel} (pass : q.pass = c :: rest) :
    arbitrate q = { q with converting := some ⟨c, .scan, .scan, false⟩ } := by
  cases slot : q.slot
  case waiting r => exact absurd slot (free r)
  all_goals simp only [arbitrate, idle, arbiterStart, slot, if_neg other, empty, pass]

theorem arbitrate_nothing (pass : q.pass = []) : arbitrate q = q := by
  cases slot : q.slot
  case waiting r => exact absurd slot (free r)
  all_goals simp only [arbitrate, idle, arbiterStart, slot, if_neg other, empty, pass]

end

/-- No source has anything to convert. -/
structure NothingPending (q : Msq) : Prop where
  slot : ∀ r, q.slot ≠ .waiting r
  gap : q.gap ≠ .pending
  queue : q.queue = []
  pass : q.pass = []

/-- An idle converter has nothing to start. -/
abbrev Rested (q : Msq) : Prop := q.converting = none → NothingPending q

theorem rested_of_busy (busy : q.converting ≠ none) : Rested q := fun idle => absurd idle busy

/-- All that the arbiter can do, source by source. -/
theorem arbitrate_induction {P : Msq → Prop} (stands : Rested q → P q)
    (inject : ∀ r, q.converting = none → q.slot = .waiting r →
      P { q with slot := .converting r, converting := some ⟨r.channel, .inject, r.requester, false⟩ })
    (gap : q.converting = none → q.gap = .pending →
      P { q with gap := .converting, converting := some ⟨.bemf, .gap, .trc, false⟩ })
    (queue : ∀ r rest, q.converting = none → (∀ r, q.slot ≠ .waiting r) → q.queue = r :: rest →
      P { q with queue := rest, converting := some ⟨r.channel, .queue, r.requester, false⟩ })
    (scan : ∀ c rest, q.converting = none → (∀ r, q.slot ≠ .waiting r) → q.pass = c :: rest →
      P { q with converting := some ⟨c, .scan, .scan, false⟩ }) : P (arbitrate q) := by
  by_cases idle : q.converting = none
  case neg =>
    rw [arbitrate_busy idle]
    exact stands (rested_of_busy idle)
  by_cases free : ∀ r, q.slot ≠ .waiting r
  case neg =>
    obtain ⟨r, waits⟩ := not_forall_not.mp free
    rw [arbitrate_inject idle waits]
    exact inject r idle waits
  by_cases pending : q.gap = .pending
  case pos =>
    rw [arbitrate_gap idle free pending]
    exact gap idle pending
  cases records : q.queue with
  | cons r rest =>
    rw [arbitrate_queue idle free pending records]
    exact queue r rest idle free records
  | nil =>
    cases channels : q.pass with
    | cons c rest =>
      rw [arbitrate_scan idle free pending records channels]
      exact scan c rest idle free channels
    | nil =>
      rw [arbitrate_nothing idle free pending records channels]
      exact stands fun _ => ⟨free, pending, records, channels⟩

/-- The arbiter leaves nothing that an idle converter could start. -/
theorem rested_arbitrate (q : Msq) : Rested (arbitrate q) :=
  arbitrate_induction id (fun _ _ _ => rested_of_busy nofun) (fun _ _ => rested_of_busy nofun)
    (fun _ _ _ _ _ => rested_of_busy nofun) fun _ _ _ _ _ => rested_of_busy nofun

/-- The arbiter writes no code. -/
@[simp] theorem arbitrate_results (q : Msq) : (arbitrate q).results = q.results :=
  arbitrate_induction (P := fun t => t.results = q.results) (fun _ => rfl) (fun _ _ _ => rfl) (fun _ _ => rfl)
    (fun _ _ _ _ _ => rfl) fun _ _ _ _ _ => rfl

/-- Of the gap source the arbiter only makes a pending one CONVERTING. -/
theorem arbitrate_gapSource (q : Msq) :
    (arbitrate q).gap = q.gap ∨ q.gap = .pending ∧ (arbitrate q).gap = .converting :=
  arbitrate_induction (P := fun t => t.gap = q.gap ∨ q.gap = .pending ∧ t.gap = .converting) (fun _ => .inl rfl)
    (fun _ _ _ => .inl rfl) (fun _ pending => .inr ⟨pending, rfl⟩) (fun _ _ _ _ _ => .inl rfl) fun _ _ _ _ _ => .inl rfl

/-- The arbiter leaves a running conversion of MOTOR_I alone. -/
theorem motorConverting_arbitrate (h : motorConverting q = true) : motorConverting (arbitrate q) = true := by
  have busy : q.converting ≠ none := fun idle => by simp [motorConverting, idle] at h
  rwa [arbitrate_busy busy]

end

/-! ### The law of the sequencer (R118, R121, R127) -/

/-- SequencerSafe but for what an idle converter could start, which the completion of a conversion leaves to the arbiter. -/
structure SequencerLaw (q : Msq) : Prop where
  queued : ∀ r ∈ q.queue, routineRequest r
  nodup : q.queue.Nodup
  codes : ∀ n ∈ q.results, n ≤ 4095
  size : q.results.length = 8
  pass : .bemf ∉ q.pass
  runs : ∀ c, q.converting = some c → conversionSound q c
  gap : q.gap = .converting → q.converting.map (fun c => c.source) = some .gap
  waits : ∀ r, q.slot = .waiting r →
    injectSound r ∧ (q.converting = none ∨ q.converting.map (fun c => c.source) = some .gap)
  injects : ∀ r, q.slot = .converting r → injectSound r ∧ q.converting.map (fun c => c.source) = some .inject

theorem sequencerSafe_iff (s : State) : SequencerSafe s ↔ SequencerLaw s.msq ∧ Rested s.msq := by
  constructor
  · rintro ⟨queued, nodup, codes, size, pass, runs, gap, slot, rest⟩
    have held (r : Inject) (h : s.msq.slot = .waiting r) :
        injectSound r ∧ s.msq.converting.map (fun c => c.source) = some .gap := by simpa only [slotSound, h] using slot
    refine ⟨⟨queued, nodup, codes, size, pass, fun c h => runs c h, gap, fun r h => ?_, fun r h => ?_⟩, fun idle => ?_⟩
    · obtain ⟨sound, running⟩ := held r h
      exact ⟨sound, .inr running⟩
    · simpa only [slotSound, h] using slot
    · obtain ⟨pending, records, channels⟩ := rest idle
      refine ⟨fun r h => ?_, pending, records, channels⟩
      obtain ⟨-, running⟩ := held r h
      simp [idle] at running
  · rintro ⟨law, rested⟩
    refine ⟨law.queued, law.nodup, law.codes, law.size, law.pass, fun c h => law.runs c h, law.gap, ?_, fun idle => ?_⟩
    · cases slot : s.msq.slot <;> simp only [slotSound, slot]
      case waiting r =>
        obtain ⟨sound, idle | running⟩ := law.waits r slot
        · exact absurd slot ((rested idle).slot r)
        · exact ⟨sound, running⟩
      case converting r => exact law.injects r slot
    · obtain ⟨-, pending, records, channels⟩ := rested idle
      exact ⟨pending, records, channels⟩

section
variable {q : Msq}

/-- A conversion reads of the rest of MSQ the slot if it is an injected one, and the gap source if it is a gap's. -/
theorem conversionSound_congr {p : Msq} {c : Conversion} (sound : conversionSound q c)
    (slot : c.source = .inject → p.slot = q.slot)
    (gap : c.source = .gap → (c.void = false ↔ p.gap = .converting)) : conversionSound p c := by
  cases source : c.source <;> simp only [conversionSound, source] at sound ⊢
  case inject => rwa [slot source]
  case gap =>
    obtain ⟨channel, requester, -⟩ := sound
    exact ⟨channel, requester, gap source⟩
  all_goals exact sound

namespace SequencerLaw

/-- The mark of a gap's conversion is void exactly while the gap source is not CONVERTING. -/
theorem gapRuns (law : SequencerLaw q) {c : Conversion} (runs : q.converting = some c) (source : c.source = .gap) :
    c.channel = .bemf ∧ c.requester = .trc ∧ (c.void = false ↔ q.gap = .converting) := by
  have sound := law.runs c runs
  simpa only [conversionSound, source] using sound

theorem injectRuns (law : SequencerLaw q) {c : Conversion} (runs : q.converting = some c) (source : c.source = .inject) :
    c.void = false ∧ q.slot = .converting ⟨c.channel, c.requester, true⟩ := by
  have sound := law.runs c runs
  simpa only [conversionSound, source] using sound

/-- An idle converter has no slot and no gap source CONVERTING. -/
theorem idle_slot (law : SequencerLaw q) (idle : q.converting = none) (r : Inject) : q.slot ≠ .converting r := fun h => by
  obtain ⟨-, running⟩ := law.injects r h
  simp [idle] at running

theorem idle_gap (law : SequencerLaw q) (idle : q.converting = none) : q.gap ≠ .converting := fun h => by
  have running := law.gap h
  simp [idle] at running

/-- A conversion that starts on an idle converter with the slot not waiting, for the queue or the pass. -/
theorem started (law : SequencerLaw q) (idle : q.converting = none) (free : ∀ r, q.slot ≠ .waiting r) {c : Conversion}
    (sound : conversionSound q c) {queue : List Request} (queued : ∀ r ∈ queue, routineRequest r) (nodup : queue.Nodup) :
    SequencerLaw { q with queue := queue, converting := some c } :=
  { law with
    queued := queued
    nodup := nodup
    runs := fun x h => by
      cases h
      exact conversionSound_congr sound (fun _ => rfl) fun source => by
        simp only [conversionSound, source] at sound
        exact sound.2.2
    gap := fun h => absurd h (law.idle_gap idle)
    waits := fun r h => absurd h (free r)
    injects := fun r h => absurd h (law.idle_slot idle r) }

theorem arbitrate (law : SequencerLaw q) : SequencerLaw (arbitrate q) := by
  refine arbitrate_induction (fun _ => law) (fun r idle waits => ?_) (fun idle pending => ?_)
    (fun r rest idle free queue => ?_) fun c rest idle free pass => ?_
  · obtain ⟨sound, -⟩ := law.waits r waits
    have cancel : r = ⟨r.channel, r.requester, true⟩ := by rcases sound with rfl | rfl | rfl <;> rfl
    exact { law with
      runs := fun c h => by
        cases h
        exact ⟨rfl, congrArg Slot.converting cancel⟩
      gap := fun h => absurd h (law.idle_gap idle)
      waits := nofun
      injects := fun x h => by
        cases h
        exact ⟨sound, rfl⟩ }
  · exact { law with
      runs := fun c h => by
        cases h
        exact ⟨rfl, rfl, fun _ => rfl, fun _ => rfl⟩
      gap := fun _ => rfl
      waits := fun r h => ⟨(law.waits r h).1, .inr rfl⟩
      injects := fun r h => absurd h (law.idle_slot idle r) }
  · have queued := law.queued
    have nodup := law.nodup
    rw [queue] at queued nodup
    exact law.started idle free (c := ⟨r.channel, .queue, r.requester, false⟩) ⟨rfl, queued r List.mem_cons_self⟩
      (fun x h => queued x (List.mem_cons_of_mem r h)) nodup.of_cons
  · have other : c ≠ .bemf := fun h => law.pass (by simp [pass, h])
    exact law.started idle free (c := ⟨c, .scan, .scan, false⟩) ⟨rfl, rfl, other⟩ law.queued law.nodup

/-! ### The requests (R121 to R123, R127, R128) -/

theorem queueRequest (law : SequencerLaw q) {r : Request} (routine : routineRequest r) :
    SequencerLaw (queueRequest q r) := by
  refine SequencerLaw.arbitrate ?_
  split
  · exact law
  case isFalse fresh =>
    split
    case isFalse => exact law
    case isTrue =>
      exact { law with
        queued := fun x h => (List.mem_append.mp h).elim (law.queued x) fun last => by
          rw [List.mem_singleton.mp last]
          exact routine
        nodup := List.nodup_append.mpr ⟨law.nodup, List.nodup_singleton r, fun a ha b hb eq =>
          fresh (List.mem_singleton.mp hb ▸ eq ▸ ha)⟩
        runs := fun c h => conversionSound_congr (law.runs c h) (fun _ => rfl) fun source => (law.gapRuns h source).2.2 }

/-- An inject with cancel in an empty slot aborts what the queue or the pass has running, and leaves a gap's conversion. -/
theorem abortRoutine (law : SequencerLaw q) (empty : q.slot = .empty) {r : Inject} (sound : injectSound r) :
    SequencerLaw (abortRoutine { q with slot := .waiting r }) := by
  have idled (queue : List Request) (queued : ∀ r ∈ queue, routineRequest r) (nodup : queue.Nodup)
      (other : q.gap ≠ .converting) :
      SequencerLaw { q with slot := .waiting r, converting := none, queue := queue } :=
    { law with
      queued := queued
      nodup := nodup
      runs := nofun
      gap := fun h => absurd h other
      waits := fun x h => by
        cases h
        exact ⟨sound, .inl rfl⟩
      injects := nofun }
  cases runs : q.converting with
  | none =>
    simp only [Machine.abortRoutine]
    exact idled q.queue law.queued law.nodup (law.idle_gap runs)
  | some c =>
    have apart (h : c.source ≠ .gap) : q.gap ≠ .converting := fun converting => by
      have running := law.gap converting
      simp only [runs, Option.map_some, Option.some.injEq] at running
      exact h running
    cases source : c.source <;> simp only [Machine.abortRoutine, source]
    case inject =>
      obtain ⟨-, slot⟩ := law.injectRuns runs source
      simp [empty] at slot
    case gap =>
      exact { law with
        runs := fun x h => by
          cases h
          exact conversionSound_congr (law.runs c runs) (fun h => by simp [source] at h) fun _ =>
            (law.gapRuns runs source).2.2
        gap := fun _ => congrArg some source
        waits := fun x h => by
          cases h
          exact ⟨sound, .inr (congrArg some source)⟩
        injects := nofun }
    case queue =>
      have record := law.runs c runs
      simp only [conversionSound, source] at record
      obtain ⟨-, record⟩ := record
      refine idled _ (fun x h => ?_) ?_ (apart (by simp [source]))
      · rcases List.mem_cons.mp h with rfl | rest
        · exact record
        · exact law.queued x (List.mem_of_mem_filter rest)
      · exact List.nodup_cons.mpr ⟨by simp, law.nodup.filter _⟩
    case scan => exact idled q.queue law.queued law.nodup (apart (by simp [source]))

theorem injectRequest (law : SequencerLaw q) {r : Inject} (sound : injectSound r) :
    SequencerLaw (injectRequest q r) := by
  have cancel : r.cancel = true := by rcases sound with rfl | rfl | rfl <;> rfl
  simp only [Machine.injectRequest, cancel, if_true]
  split
  case isTrue room => exact (law.abortRoutine (by simpa [injectRoom] using room) sound).arbitrate
  case isFalse => exact law

/-! ### The gap source (R124 to R126) -/

/-- A gap source that is not CONVERTING and becomes another such one. -/
theorem gapSource (law : SequencerLaw q) {g : GapSource} (was : q.gap ≠ .converting) (next : g ≠ .converting) :
    SequencerLaw { q with gap := g } :=
  { law with
    runs := fun c h => conversionSound_congr (law.runs c h) (fun _ => rfl) fun source => by
      obtain ⟨-, -, void⟩ := law.gapRuns h source
      exact void.trans (iff_of_false was next)
    gap := fun h => absurd h next }

theorem gapWithdraw (law : SequencerLaw q) : SequencerLaw (gapWithdraw q) := by
  cases gap : q.gap <;> simp only [Machine.gapWithdraw, gap]
  case noRequest => exact law
  case offered | pending => exact law.gapSource (by simp [gap]) nofun
  case converting =>
    have running := law.gap gap
    have sources : (q.converting.map fun c => { c with void := true }).map (fun c => c.source) =
        q.converting.map fun c => c.source := by rw [Option.map_map]; rfl
    exact { law with
      runs := fun c h => by
        obtain ⟨b, runs, rfl⟩ := Option.map_eq_some_iff.mp h
        have source : b.source = .gap := by simpa [runs] using running
        obtain ⟨channel, requester, -⟩ := law.gapRuns runs source
        simp only [conversionSound, source]
        exact ⟨channel, requester, iff_of_false nofun nofun⟩
      gap := nofun
      waits := fun r h => ⟨(law.waits r h).1, .inr (sources.trans running)⟩
      injects := fun r h => ⟨(law.injects r h).1, sources.trans (law.injects r h).2⟩ }

theorem gapReady (law : SequencerLaw q) : SequencerLaw (gapReady q) := by
  simp only [Machine.gapReady]
  split
  case isTrue offered => exact (law.gapSource (g := .pending) (by simp [offered]) nofun).arbitrate
  case isFalse => exact law

/-! ### The scan (R129, R130) -/

theorem scanExpiry (law : SequencerLaw q) (scanSet period : Nat) : SequencerLaw (scanExpiry q scanSet period) := by
  have formed (pass : List Channel) (bemf : .bemf ∉ pass) :
      SequencerLaw { q with scanTimer := some (period * 1000), pass := pass } :=
    { law with
      pass := bemf
      runs := fun c h => conversionSound_congr (law.runs c h) (fun _ => rfl) fun source => (law.gapRuns h source).2.2 }
  simp only [Machine.scanExpiry]
  split
  · exact (formed _ (by simp [scanChannels])).arbitrate
  · exact formed q.pass law.pass

end SequencerLaw

end

/-! ### What stands through the requests -/

section
variable {q : Msq}

theorem rested_gapWithdraw (h : Rested q) : Rested (gapWithdraw q) := by
  obtain ⟨slot, queue, pass, -, converting⟩ := gapWithdraw_keeps q
  intro idle
  obtain ⟨free, -, records, channels⟩ := h (by rcases converting with eq | eq <;> simpa [eq] using idle)
  refine ⟨slot ▸ free, ?_, queue.trans records, pass.trans channels⟩
  cases gap : q.gap <;> simp [gapWithdraw, gap]

theorem rested_gapReady (h : Rested q) : Rested (gapReady q) := by
  simp only [gapReady]
  split
  · exact rested_arbitrate _
  · exact h

theorem rested_injectRequest (r : Inject) (h : Rested q) : Rested (injectRequest q r) := by
  simp only [injectRequest]
  split
  · exact rested_arbitrate _
  · exact h

theorem rested_scanExpiry (scanSet period : Nat) (h : Rested q) : Rested (scanExpiry q scanSet period) := by
  simp only [scanExpiry]
  split
  · exact rested_arbitrate _
  · exact fun idle => ⟨(h idle).slot, (h idle).gap, (h idle).queue, (h idle).pass⟩

/-! A request writes no code. -/

section
variable (q : Msq)

@[simp] theorem queueRequest_results (r : Request) : (queueRequest q r).results = q.results := by
  simp only [queueRequest, arbitrate_results]
  (repeat' split) <;> rfl

@[simp] theorem injectRequest_results (r : Inject) : (injectRequest q r).results = q.results := by
  simp only [injectRequest, abortRoutine]
  (repeat' split) <;> simp

@[simp] theorem gapWithdraw_results : (gapWithdraw q).results = q.results := by
  obtain ⟨-, -, -, results, -⟩ := gapWithdraw_keeps q
  exact results

@[simp] theorem gapReady_results : (gapReady q).results = q.results := by
  simp only [gapReady]
  split <;> simp

@[simp] theorem scanExpiry_results (scanSet period : Nat) : (scanExpiry q scanSet period).results = q.results := by
  simp only [scanExpiry]
  split <;> simp

end

/-! A running conversion of MOTOR_I goes on through a request, but for an inject, which can abort it. -/

section
variable (h : motorConverting q = true)
include h

theorem motorConverting_queueRequest (r : Request) : motorConverting (queueRequest q r) = true := by
  refine motorConverting_arbitrate ?_
  (repeat' split) <;> exact h

theorem motorConverting_gapReady : motorConverting (gapReady q) = true := by
  simp only [gapReady]
  split
  · exact motorConverting_arbitrate h
  · exact h

theorem motorConverting_scanExpiry (scanSet period : Nat) : motorConverting (scanExpiry q scanSet period) = true := by
  simp only [scanExpiry]
  split
  · exact motorConverting_arbitrate h
  · exact h

end

/-- The void mark of a gap's conversion leaves its channel. -/
@[simp] theorem motorConverting_gapWithdraw (q : Msq) : motorConverting (gapWithdraw q) = motorConverting q := by
  obtain ⟨-, -, -, -, eq | eq⟩ := gapWithdraw_keeps q <;>
    simp [motorConverting, eq, Function.comp_def]

/-- What can become of the gap source in a request that is not the gap's own: the arbiter starts one that is pending. -/
def GapSourceKept (q p : Msq) : Prop := p.gap = q.gap ∨ q.gap = .pending ∧ p.gap = .converting

theorem gapSourceKept_arbitrate {p : Msq} (same : p.gap = q.gap) : GapSourceKept q (arbitrate p) := by
  simpa only [GapSourceKept, same] using arbitrate_gapSource p

section
variable (q : Msq)

theorem gapSourceKept_queueRequest (r : Request) : GapSourceKept q (queueRequest q r) := by
  refine gapSourceKept_arbitrate ?_
  (repeat' split) <;> rfl

theorem gapSourceKept_injectRequest (r : Inject) : GapSourceKept q (injectRequest q r) := by
  simp only [injectRequest]
  split
  · refine gapSourceKept_arbitrate ?_
    simp only [abortRoutine]
    (repeat' split) <;> rfl
  · exact .inl rfl

theorem gapSourceKept_scanExpiry (scanSet period : Nat) : GapSourceKept q (scanExpiry q scanSet period) := by
  simp only [scanExpiry]
  split
  · exact gapSourceKept_arbitrate rfl
  · exact .inl rfl

end

end

end Sys2Proof.Laws
end

section
/-!
SUPPORT. The switches of the bridge, and the timers of MBR (R101, R102, R106, R114, R125).
-/
namespace Sys2Proof.Laws

open Sys2Proof.Machine

/-! ### The switches (R101) -/

section
variable {m : Mbr} {elapsed : Nat}

theorem inOnTime_iff : inOnTime m elapsed = true ↔
    ∃ p, m.period = some p ∧ p.opened = false ∧ elapsed * 1023 < p.length * m.applied := by
  cases period : m.period <;> simp [inOnTime, period]

/-- The switches that a direction closes during the on-time. -/
def driveSwitches : Dir → List Switch
  | .fwd => [.highA, .lowB]
  | .rev => [.highB, .lowA]

theorem mem_driveSwitches (d : Dir) (x : Switch) : x ∈ driveSwitches d ↔
    d = .fwd ∧ (x = .highA ∨ x = .lowB) ∨ d = .rev ∧ (x = .highB ∨ x = .lowA) := by
  cases d <;> simp [driveSwitches]

theorem closedSwitches_onTime (drive : m.bridge = .drive) (on : inOnTime m elapsed = true) :
    closedSwitches m elapsed = driveSwitches m.drive := by
  simp only [closedSwitches, drive, on, if_true]
  cases m.drive <;> rfl

theorem closedSwitches_rest (drive : m.bridge = .drive) (off : inOnTime m elapsed = false) :
    closedSwitches m elapsed = [] := by
  simp [closedSwitches, drive, off]

/-- A high side is closed in DRIVE within the on-time alone. -/
theorem high_closed (high : .highA ∈ closedSwitches m elapsed ∨ .highB ∈ closedSwitches m elapsed) :
    m.bridge = .drive ∧ inOnTime m elapsed = true := by
  cases bridge : m.bridge
  case drive =>
    cases on : inOnTime m elapsed
    case false => simp [closedSwitches_rest bridge on] at high
    case true => exact ⟨rfl, rfl⟩
  all_goals simp [closedSwitches, bridge] at high

/-- The on-time closes one side of an output. -/
theorem one_side_closed {high low : Switch} (output : high = .highA ∧ low = .lowA ∨ high = .highB ∧ low = .lowB) :
    ¬(high ∈ closedSwitches m elapsed ∧ low ∈ closedSwitches m elapsed) := by
  rintro ⟨up, down⟩
  have upper : .highA ∈ closedSwitches m elapsed ∨ .highB ∈ closedSwitches m elapsed := by
    rcases output with ⟨rfl, -⟩ | ⟨rfl, -⟩
    · exact .inl up
    · exact .inr up
  obtain ⟨drive, on⟩ := high_closed upper
  rw [closedSwitches_onTime drive on, mem_driveSwitches] at up down
  rcases output with ⟨rfl, rfl⟩ | ⟨rfl, rfl⟩ <;> simp at up down <;> simp [up] at down

end

/-- Settles O36, by the bridge state and whether the period is in its on-time. -/
theorem bridgeNeverShorts : Obligations.BridgeNeverShorts := by
  intro m elapsed
  refine ⟨fun x => ?_, fun p drive period unopened within => ?_, one_side_closed (.inl ⟨rfl, rfl⟩),
    one_side_closed (.inr ⟨rfl, rfl⟩), fun high => ?_⟩
  · cases bridge : m.bridge <;> simp only
    case drive =>
      cases on : inOnTime m elapsed
      case true => simp only [closedSwitches_onTime bridge on, inOnTime_iff.mp on, true_and, mem_driveSwitches]
      case false =>
        have rest := mt inOnTime_iff.mpr (Bool.eq_false_iff.mp on)
        simp only [closedSwitches_rest bridge on, List.not_mem_nil, rest, false_and]
    all_goals simp [closedSwitches, bridge]
  · constructor <;> intro duty
    · have on : inOnTime m elapsed = true := inOnTime_iff.mpr ⟨p, period, unopened, by rw [duty]; omega⟩
      rw [closedSwitches_onTime drive on]
      cases m.drive <;> exact List.cons_ne_nil _ _
    · refine closedSwitches_rest drive (Bool.eq_false_iff.mpr fun on => ?_)
      obtain ⟨b, -, -, short⟩ := inOnTime_iff.mp on
      simp [duty] at short
  · obtain ⟨drive, on⟩ := high_closed high
    exact ⟨drive, inOnTime_iff.mp on⟩

/-! ### The timers (R102, R106, R114, R125) -/

theorem pwmLength_eq (freq : Nat) : pwmLength freq = if freq = 0 then 10000000 else if freq = 1 then 50000 else 31250 := by
  match freq with
  | 0 => rfl
  | 1 => rfl
  | _ + 2 => rfl

section
variable {s : State}

theorem periodEnd_idle (h : s.mbr.bridge ≠ .drive) : periodEnd s = s := if_neg h

theorem periodEnd_gap (drive : s.mbr.bridge = .drive) (pending : s.mbr.gap = .pending) :
    periodEnd s = s.setMbr { s.mbr with bridge := .gap, gap := .settling, applied := 0, period := none,
                                        settleTimer := some (s.gapSettle * 100) } :=
  (if_pos drive).trans (if_pos pending)

theorem periodEnd_drive (drive : s.mbr.bridge = .drive) (other : s.mbr.gap ≠ .pending) : periodEnd s = startPeriod s :=
  (if_pos drive).trans (if_neg other)

theorem settleExpiry_stopped (h : s.mbr.settleTimer = none) : settleExpiry s = s := by
  simp [settleExpiry, h]

theorem settleExpiry_running (h : s.mbr.settleTimer ≠ none) :
    settleExpiry s = (s.setMbr { s.mbr with gap := .ready, settleTimer := none }).setMsq (gapReady s.msq) :=
  if_pos (Option.isSome_iff_ne_none.mpr h)

end

section
variable {q : Msq}

theorem gapReady_busy (offered : q.gap = .offered) (busy : q.converting ≠ none) :
    gapReady q = { q with gap := .pending } :=
  (if_pos offered).trans (arbitrate_busy busy)

theorem gapReady_idle (offered : q.gap = .offered) (idle : q.converting = none) (free : ∀ r, q.slot ≠ .waiting r) :
    gapReady q = { q with gap := .converting, converting := some ⟨.bemf, .gap, .trc, false⟩ } :=
  (if_pos offered).trans (arbitrate_gap idle free rfl)

end

theorem tripFreeExpiry_eq (s : State) : tripFreeExpiry s =
    if s.mbr.tripFreeTimer = none then s else s.setMbr { s.mbr with tripFreeTimer := none, overloads := 0 } := by
  cases timer : s.mbr.tripFreeTimer <;> simp [tripFreeExpiry, timer]

/-- Settles O38, from what each of the three expiries does. -/
theorem bridgeTimersExpire : Obligations.BridgeTimersExpire := by
  refine ⟨fun s run => ⟨fun other => ?_, fun drive pending => ?_, fun drive other => ?_⟩,
    fun s run => ⟨fun timer offered busy => ?_, fun timer offered idle empty => ?_, fun stopped => ?_, ?_⟩⟩
  · exact (live_running run).trans (congrArg _ (periodEnd_idle other))
  · exact (live_running run).trans (congrArg _ (periodEnd_gap drive pending))
  · refine (live_running run).trans (congrArg _ ((periodEnd_drive drive other).trans ?_))
    rw [startPeriod, pwmLength_eq]
  · refine (live_running run).trans (congrArg _ ((settleExpiry_running timer).trans ?_))
    rw [gapReady_busy offered busy]
  · refine (live_running run).trans (congrArg _ ((settleExpiry_running timer).trans ?_))
    rw [gapReady_idle offered idle (by simp [empty])]
  · exact (live_running run).trans (congrArg _ (settleExpiry_stopped stopped))
  · exact (live_running run).trans (congrArg _ (tripFreeExpiry_eq s))

end Sys2Proof.Laws
end

section
/-!
SUPPORT. The laws of the bridge, its gap, the sequencer and the current sense, through every act of MBR (R101 to R108, R110, R126).
-/
namespace Sys2Proof.Laws

open Sys2Proof.Machine

/-! ### The laws -/

/-- All that the laws of the bridge, the gap, the sequencer and the current sense read. -/
def bridgeView (s : State) :=
  (s.mbr.bridge, s.mbr.mode, s.mbr.applied, s.mbr.period, s.mbr.gap, s.mbr.settleTimer, s.mbr.retryTimer, s.mbr.currentHold,
    s.mbr.heldCode, s.mbr.sample, s.msq, s.trc.outstanding)

/-- The bridge states of a mode demanded (R103, R109). -/
def bridgeAllowed : Mode → Bridge → Prop
  | .off, b => b = .off
  | .emergencyStop, b => b = .brake ∨ b = .off
  | .drive, b => b = .drive ∨ b = .gap ∨ b = .tripped

/-- The laws of O41 but for the mode demanded, the sense only where `sense` holds, and the sequencer without what the arbiter
sees to. -/
structure BridgeSound (sense : Prop) (s : State) : Prop where
  period : s.mbr.bridge = .drive ↔ s.mbr.period.isSome = true
  closed : s.mbr.bridge ≠ .drive → s.mbr.applied = 0
  retry : s.mbr.retryTimer.isSome = true → s.mbr.bridge = .tripped
  gap : GapSafe s
  msq : SequencerLaw s.msq
  sense : sense → SenseSafe s

structure BridgeLaw (sense : Prop) (s : State) : Prop extends BridgeSound sense s where
  allowed : bridgeAllowed s.mbr.mode s.mbr.bridge

section
variable {sense : Prop} {s t : State}

theorem bridgeAllowed_iff (m : Mode) (b : Bridge) : bridgeAllowed m b ↔
    (m = .off → b = .off) ∧ (m = .emergencyStop → b = .brake ∨ b = .off) ∧
      (m = .drive → b = .drive ∨ b = .gap ∨ b = .tripped) := by
  cases m <;> simp [bridgeAllowed]

/-- A bridge in DRIVE, GAP or TRIPPED is there for the mode DRIVE. -/
theorem drive_of_allowed {m : Mode} {b : Bridge} (h : bridgeAllowed m b) (on : b = .drive ∨ b = .gap ∨ b = .tripped) :
    m = .drive := by
  cases m <;> rcases on with rfl | rfl | rfl <;> simp [bridgeAllowed] at h ⊢

theorem allowed_of_drive {m : Mode} {b : Bridge} (mode : m = .drive) (on : b = .drive ∨ b = .gap ∨ b = .tripped) :
    bridgeAllowed m b := by
  rw [mode]
  exact on

theorem bridgeLaw_iff (s : State) :
    BridgeLaw sense s ↔ BridgeSafe s ∧ GapSafe s ∧ SequencerLaw s.msq ∧ (sense → SenseSafe s) := by
  constructor
  · rintro ⟨⟨period, closed, retry, gap, msq, sense⟩, allowed⟩
    obtain ⟨off, emergency, drive⟩ := (bridgeAllowed_iff _ _).mp allowed
    exact ⟨⟨off, emergency, drive, period, closed, retry⟩, gap, msq, sense⟩
  · rintro ⟨⟨off, emergency, drive, period, closed, retry⟩, gap, msq, sense⟩
    exact ⟨⟨period, closed, retry, gap, msq, sense⟩, (bridgeAllowed_iff _ _).mpr ⟨off, emergency, drive⟩⟩

theorem BridgeSound.congr (h : BridgeSound sense s) (same : bridgeView t = bridgeView s) : BridgeSound sense t := by
  simp only [bridgeView, Prod.mk.injEq] at same
  obtain ⟨bridge, -, applied, period, gap, settle, retry, hold, code, sample, msq, outstanding⟩ := same
  refine ⟨?_, ?_, ?_, ?_, msq ▸ h.msq, fun on => ?_⟩
  · rw [bridge, period]
    exact h.period
  · rw [bridge, applied]
    exact h.closed
  · rw [bridge, retry]
    exact h.retry
  · rw [GapSafe, bridge, gap, settle, msq, outstanding]
    exact h.gap
  · rw [SenseSafe, bridge, period, hold, code, sample, msq]
    exact h.sense on

theorem BridgeLaw.congr (h : BridgeLaw sense s) (same : bridgeView t = bridgeView s) : BridgeLaw sense t := by
  have sound := h.toBridgeSound.congr same
  simp only [bridgeView, Prod.mk.injEq] at same
  obtain ⟨bridge, mode, -⟩ := same
  exact { sound with allowed := by rw [bridge, mode]; exact h.allowed }

/-- A gap's conversion that has not been made void runs in a settled gap (R118). -/
theorem BridgeSound.bemfSafe (h : BridgeSound sense s) : BemfSafe s := by
  intro c runs channel stands
  have source : c.source = .gap := by
    have sound := h.msq.runs c runs
    cases source : c.source <;> simp only [conversionSound, source] at sound
    case inject =>
      obtain ⟨record, -⟩ := h.msq.injects _ sound.2
      simp [injectSound, channel] at record
    case gap => rfl
    case queue => simp [routineRequest, channel] at sound
    case scan => simp [channel] at sound
  obtain ⟨-, -, void⟩ := h.msq.gapRuns runs source
  obtain ⟨-, phase, -, -, ready, -⟩ := h.gap
  have ready := ready.mp (.inr (void.mp stands))
  exact ⟨phase.mp (.inr ready), ready⟩

/-- Outside GAP, and with none pending, no gap is under way. -/
theorem BridgeSound.noGap (h : BridgeSound sense s) (other : s.mbr.bridge ≠ .gap) (free : s.mbr.gap ≠ .pending) :
    s.mbr.gap = .noGap := by
  obtain ⟨-, phase, -⟩ := h.gap
  cases gap : s.mbr.gap
  case noGap => rfl
  case pending => exact absurd gap free
  case settling => exact absurd (phase.mp (.inl gap)) other
  case ready => exact absurd (phase.mp (.inr gap)) other

/-! ### With no gap under way -/

/-- No gap is under way, no retry is awaited, and what is said of a hold and of what a conversion samples is sound. -/
structure Clear (sense : Prop) (s : State) : Prop where
  gap : s.mbr.gap = .noGap
  settle : s.mbr.settleTimer = none
  source : s.msq.gap = .noRequest
  answered : s.trc.outstanding = false
  retry : s.mbr.retryTimer = none
  msq : SequencerLaw s.msq
  held : sense → s.mbr.heldCode.isSome = true → s.mbr.currentHold = true
  sample : sense → s.mbr.sample ≠ .present → motorConverting s.msq = true

theorem Clear.sound (h : Clear sense s) (other : s.mbr.bridge ≠ .gap)
    (period : s.mbr.bridge = .drive ↔ s.mbr.period.isSome = true) (closed : s.mbr.bridge ≠ .drive → s.mbr.applied = 0)
    (hold : sense → s.mbr.currentHold = true → s.mbr.bridge = .tripped ∨ s.mbr.bridge = .off)
    (past : ∀ p ∈ s.mbr.period, p.past < p.length) : BridgeSound sense s where
  period := period
  closed := closed
  retry := by simp [h.retry]
  gap := by simp [GapSafe, h.gap, h.settle, h.source, h.answered, other]
  msq := h.msq
  sense on := ⟨hold on, h.held on, h.sample on, past⟩

/-- With no gap at MBR there is none at MSQ and TRC either. -/
theorem BridgeSound.clear (h : BridgeSound sense s) (gap : s.mbr.gap = .noGap) (other : s.mbr.bridge ≠ .tripped) :
    Clear sense s := by
  obtain ⟨-, -, settle, offered, ready, outstanding⟩ := h.gap
  simp only [gap, reduceCtorEq, or_self, iff_false, not_or] at settle offered ready
  obtain ⟨pending, converting⟩ := ready
  have source : s.msq.gap = .noRequest := by
    cases source : s.msq.gap
    case noRequest => rfl
    all_goals contradiction
  exact {
    gap := gap
    settle := by simpa using settle
    source := source
    answered := by simpa [source] using outstanding
    retry := Option.not_isSome_iff_eq_none.mp fun timer => other (h.retry timer)
    msq := h.msq
    held := fun on => (h.sense on).2.1
    sample := fun on => (h.sense on).2.2.1 }

theorem BridgeSound.clear_still (h : BridgeSound sense s) (still : s.mbr.bridge = .off ∨ s.mbr.bridge = .brake) :
    Clear sense s := by
  obtain ⟨pending, -⟩ := h.gap
  rcases still with bridge | bridge <;>
    exact h.clear (h.noGap (by simp [bridge]) fun gap => by simp [bridge] at pending; exact pending gap) (by simp [bridge])

/-- A trip has no gap; it ends with the retry timer stopped (R115). -/
theorem BridgeSound.clear_endTrip (h : BridgeSound sense s) (tripped : s.mbr.bridge = .tripped) : Clear sense (endTrip s) := by
  obtain ⟨pending, phase, settle, offered, ready, outstanding⟩ := h.gap
  have gap : s.mbr.gap = .noGap := h.noGap (by simp [tripped]) fun gap => by simp [tripped] at pending; exact pending gap
  have free : BridgeSound sense ((endTrip s).setMbr { (endTrip s).mbr with bridge := .off }) :=
    { period := by simpa [endTrip, tripped] using h.period
      closed := fun _ => h.closed (by simp [tripped])
      retry := nofun
      gap := by simpa [GapSafe, endTrip, tripped] using h.gap
      msq := h.msq
      sense := fun on => by simpa [SenseSafe, endTrip, tripped] using h.sense on }
  have clear := free.clear gap nofun
  exact { clear with }

/-- An abandoned gap leaves none (R108, R126). -/
theorem BridgeSound.clear_abandonGap (h : BridgeSound sense s) (other : s.mbr.bridge ≠ .tripped) :
    Clear sense (abandonGap s) := by
  simp only [abandonGap]
  split
  case isTrue gap => exact h.clear gap other
  case isFalse =>
    exact {
      gap := rfl
      settle := rfl
      source := by
        show (gapWithdraw s.msq).gap = .noRequest
        cases gap : s.msq.gap <;> simp [gapWithdraw, gap]
      answered := rfl
      retry := Option.not_isSome_iff_eq_none.mp fun timer => other (h.retry timer)
      msq := h.msq.gapWithdraw
      held := fun on => (h.sense on).2.1
      sample := fun on mark => (motorConverting_gapWithdraw s.msq).trans ((h.sense on).2.2.1 mark) }

/-! ### The hold of the current sense (R110) -/

/-- What a conversion is said to have sampled otherwise than from the sense as it stands is said of one that runs. -/
theorem sample_running {old new : MotorSample} {b : Bool} (runs : b = true → presentSampled s = true)
    (h : old ≠ .present → motorConverting s.msq = true) (mark : (if b = true then new else old) ≠ .present) :
    motorConverting s.msq = true := by
  cases b
  case false => exact h mark
  case true =>
    have sampled := runs rfl
    simp only [presentSampled, Bool.and_eq_true] at sampled
    obtain ⟨running, -⟩ := sampled
    exact running

theorem Clear.holdReleased (h : Clear sense s) : Clear sense (holdReleased s) :=
  { h with
    held := fun _ => nofun
    sample := fun on => sample_running (s := s) (fun both => by simp only [Bool.and_eq_true] at both; exact both.2) (h.sample on) }

theorem Clear.holdBegun (h : Clear sense s) : Clear sense (holdBegun s) :=
  { h with
    held := fun _ => nofun
    sample := fun on => sample_running (s := s) id (h.sample on) }

/-! ### Entering a bridge state (R103, R109, R114) -/

theorem pwmLength_pos (freq : Nat) : 0 < pwmLength freq := by
  rw [pwmLength_eq]
  split
  · decide
  · split <;> decide

theorem Clear.bridgeStop (h : Clear sense s) (b : Bridge) : Clear sense (bridgeStop s b) := { h with }

theorem Clear.startPeriod (h : Clear sense s) (drive : s.mbr.bridge = .drive)
    (hold : sense → s.mbr.currentHold = false) : BridgeSound sense (startPeriod s) := by
  have clear : Clear sense (Machine.startPeriod s) := { h with }
  refine clear.sound (drive.trans_ne nofun) (iff_of_true drive rfl) (fun h => absurd drive h) (fun on held => ?_)
    fun p period => ?_
  · exact absurd ((hold on).symm.trans held) nofun
  · cases period
    exact pwmLength_pos _

theorem Clear.bridgeDrive (h : Clear sense s) : BridgeSound sense (bridgeDrive s) := by
  have clear : Clear sense (s.setMbr { s.mbr with bridge := .drive, tripLevel := s.tripLevelSetting }) := { h with }
  exact clear.holdReleased.startPeriod rfl fun _ => rfl

theorem Clear.bridgeStart (h : Clear sense s) : BridgeSound sense (bridgeStart s) := by
  have sound := h.bridgeDrive
  exact { sound with }

theorem Clear.bridgeOff (h : Clear sense s) : BridgeSound sense (bridgeOff s) :=
  (h.bridgeStop .off).sound nofun (by simp [Machine.bridgeStop]) (fun _ => rfl) (fun _ _ => .inr rfl) nofun

theorem Clear.bridgeEmergency (h : Clear sense s) : BridgeSound sense (bridgeEmergency s) := by
  simp only [Machine.bridgeEmergency]
  split
  · exact (h.bridgeStop .brake).holdReleased.sound nofun
      (by simp [Machine.bridgeStop, Machine.holdReleased]) (fun _ => rfl) (fun _ => nofun) nofun
  · exact h.bridgeOff

theorem abandonGap_bridgeStop (s : State) (b : Bridge) : abandonGap (bridgeStop s b) = bridgeStop (abandonGap s) b := by
  by_cases gap : s.mbr.gap = .noGap
  · exact (if_pos gap).trans (congrArg (bridgeStop · b) (if_pos gap).symm)
  · have kept : (bridgeStop s b).mbr.gap ≠ .noGap := gap
    rw [abandonGap, if_neg kept, abandonGap, if_neg gap]
    rfl

theorem BridgeSound.bridgeTripped (h : BridgeSound sense s) (on : s.mbr.bridge ≠ .tripped) :
    BridgeSound sense (bridgeTripped s) := by
  rw [Machine.bridgeTripped, abandonGap_bridgeStop]
  have clear := ((h.clear_abandonGap on).bridgeStop .tripped).holdBegun
  exact clear.sound nofun (by simp [Machine.bridgeStop, Machine.holdBegun]) (fun _ => rfl) (fun _ _ => .inl rfl) nofun

/-! ### Demands (R102 to R104) -/

theorem BridgeSound.takeMode (h : BridgeSound sense s) (m : Mode) : BridgeSound sense (takeMode s m) := by
  have abandoned (on : s.mbr.bridge = .drive ∨ s.mbr.bridge = .gap) : Clear sense (abandonGap s) :=
    h.clear_abandonGap (by rcases on with bridge | bridge <;> simp [bridge])
  cases bridge : s.mbr.bridge <;> cases m <;> simp only [Machine.takeMode, bridge]
  case off.off | drive.drive | gap.drive | brake.emergencyStop | tripped.drive => exact h
  case off.emergencyStop => exact (h.clear_still (.inl bridge)).bridgeEmergency
  case off.drive => exact (h.clear_still (.inl bridge)).bridgeStart
  case brake.off => exact (h.clear_still (.inr bridge)).bridgeOff
  case brake.drive => exact (h.clear_still (.inr bridge)).bridgeStart
  case drive.off => exact (abandoned (.inl bridge)).bridgeOff
  case drive.emergencyStop => exact (abandoned (.inl bridge)).bridgeEmergency
  case gap.off => exact (abandoned (.inr bridge)).bridgeOff
  case gap.emergencyStop => exact (abandoned (.inr bridge)).bridgeEmergency
  case tripped.off => exact (h.clear_endTrip bridge).bridgeOff
  case tripped.emergencyStop => exact (h.clear_endTrip bridge).bridgeEmergency

theorem bridgeEmergency_bridge (s : State) : (bridgeEmergency s).mbr.bridge = .brake ∨ (bridgeEmergency s).mbr.bridge = .off := by
  simp only [bridgeEmergency]
  split
  · exact .inl rfl
  · exact .inr rfl

theorem takeMode_allowed (s : State) (m : Mode) : bridgeAllowed m (takeMode s m).mbr.bridge := by
  cases m
  case off => cases bridge : s.mbr.bridge <;> simp only [takeMode, bridge, bridgeAllowed] <;> rfl
  case emergencyStop =>
    cases bridge : s.mbr.bridge <;> simp only [takeMode, bridge]
    case brake => exact .inl rfl
    all_goals exact bridgeEmergency_bridge _
  case drive =>
    cases bridge : s.mbr.bridge <;> simp only [takeMode, bridge]
    case drive | off | brake => exact .inl rfl
    case gap => exact .inr (.inl rfl)
    case tripped => exact .inr (.inr rfl)

theorem BridgeSound.takeDirection (h : BridgeSound sense s) : BridgeSound sense (takeDirection s) := by
  have bridged : (abandonGap s).mbr.bridge = s.mbr.bridge := congrArg Prod.fst (abandonGap_bridging s)
  have hold : (abandonGap s).mbr.currentHold = s.mbr.currentHold := by
    simp only [abandonGap]
    split <;> rfl
  cases bridge : s.mbr.bridge <;> simp only [Machine.takeDirection, bridge]
  case off | brake | tripped => exact h
  case drive =>
    refine (h.clear_abandonGap (by simp [bridge])).startPeriod (bridged.trans bridge) fun on => ?_
    obtain ⟨held, -⟩ := h.sense on
    simpa [bridge, hold] using held
  case gap => exact (h.clear_abandonGap (by simp [bridge])).bridgeDrive

theorem takeDirection_allowed {m : Mode} (h : bridgeAllowed m s.mbr.bridge) :
    bridgeAllowed m (takeDirection s).mbr.bridge := by
  rcases takeDirection_applied s with ⟨drives, -⟩ | ⟨same, -⟩
  · cases bridge : s.mbr.bridge
    case drive | gap =>
      rw [drive_of_allowed h (by simp [bridge]), drives]
      exact .inl rfl
    all_goals
      have same : Machine.takeDirection s = s := by simp only [takeDirection, bridge]
      rwa [same]
  · rwa [same]

theorem BridgeSound.takeDutyAtOnce (h : BridgeSound sense s) : BridgeSound sense (takeDutyAtOnce s) := by
  simp only [Machine.takeDutyAtOnce]
  split
  case isFalse => exact h
  case isTrue drive =>
    exact { h with
      period := by simpa using h.period
      closed := fun other => absurd drive other
      sense := fun on => by
        obtain ⟨hold, code, sample, past⟩ := h.sense on
        refine ⟨hold, code, sample, fun p period => ?_⟩
        obtain ⟨b, was, rfl⟩ := Option.map_eq_some_iff.mp period
        obtain ⟨-, within⟩ := timePast_spec b
        exact within (past b was) }

theorem BridgeSound.demandKept (h : BridgeSound sense s) (m : Mode) (d : Dir) (duty : Nat) :
    BridgeSound sense (demandKept s m d duty) := { h with }

/-- A demand leaves a sound bridge sound, and in a state that the mode allows if it was in one that the old mode allows. -/
theorem BridgeSound.takeDemand (h : BridgeSound sense s) (m : Mode) (d : Dir) (duty : Nat) (atOnce : Bool) :
    BridgeSound sense (takeDemand s m d duty atOnce) ∧
      ((m = s.mbr.mode → bridgeAllowed m s.mbr.bridge) →
        bridgeAllowed m (takeDemand s m d duty atOnce).mbr.bridge) := by
  have kept := h.demandKept m d duty
  by_cases taken : m ≠ s.mbr.mode ∨ m = .emergencyStop
  case pos =>
    rw [takeDemand_mode duty atOnce d taken]
    exact ⟨kept.takeMode m, fun _ => takeMode_allowed _ m⟩
  obtain ⟨mode, other⟩ := not_or.mp taken
  have mode : m = s.mbr.mode := not_not.mp mode
  by_cases turned : d ≠ s.mbr.drive
  · rw [takeDemand_turn duty atOnce mode other turned]
    exact ⟨kept.takeDirection, fun was => takeDirection_allowed (was mode)⟩
  · rw [takeDemand_duty duty atOnce mode other (not_not.mp turned)]
    split
    · refine ⟨kept.takeDutyAtOnce, fun was => ?_⟩
      simp only [Machine.takeDutyAtOnce]
      split <;> exact was mode
    · exact ⟨kept, fun was => was mode⟩

/-- The handing of TRC's demand keeps the law, if the bridge is in a state that the mode allows where the mode stays. -/
theorem BridgeSound.handDemand (h : BridgeSound sense s)
    (allowed : demandedMode s.trc.state = s.mbr.mode → bridgeAllowed s.mbr.mode s.mbr.bridge) (atOnce : Bool) :
    BridgeLaw sense (handDemand s atOnce) := by
  by_cases hands : (demandChanged s || (atOnce && demandedMode s.trc.state = .drive)) = true
  case pos =>
    have eq : Machine.handDemand s atOnce = _ := if_pos hands
    have mode := congrArg Prod.fst (takeDemand_held s (demandedMode s.trc.state) s.trc.drive (demandedDuty s.trc) atOnce)
    obtain ⟨sound, within⟩ := h.takeDemand (demandedMode s.trc.state) s.trc.drive (demandedDuty s.trc) atOnce
    rw [eq]
    refine { sound with allowed := ?_ }
    rw [show (Machine.takeDemand s _ _ _ atOnce).mbr.mode = demandedMode s.trc.state from mode]
    exact within fun same => same ▸ allowed same
  case neg =>
    have eq : Machine.handDemand s atOnce = s := if_neg hands
    have same : demandedMode s.trc.state = s.mbr.mode := by
      by_contra other
      simp [demandChanged, other] at hands
    rw [eq]
    exact { h with allowed := allowed same }

end

end Sys2Proof.Laws
end

section
/-!
SUPPORT. The operations on the bridge and the sequencer of which every command is made up, and the laws through each of them (R84,
R102 to R115, R121 to R130).
-/
namespace Sys2Proof.Laws

open Sys2Proof.Machine

/-! ### What becomes of MSQ between two completions -/

/-- What an operation does to MSQ. -/
inductive SequencerOp (q : Msq) : Msq → Prop
  | same : SequencerOp q q
  | withdrawn : SequencerOp q (gapWithdraw q)
  | offered : SequencerOp q { q with gap := .offered }
  | ready : SequencerOp q (gapReady q)
  | requested (r : Request) : SequencerOp q (queueRequest q r)
  | injected (r : Inject) : SequencerOp q (injectRequest q r)
  | scanned (scanSet period : Nat) : SequencerOp q (scanExpiry q scanSet period)

section
variable {q p : Msq}

theorem SequencerOp.results (op : SequencerOp q p) : p.results = q.results := by
  cases op with
  | same | offered => rfl
  | withdrawn => exact gapWithdraw_results q
  | ready => exact gapReady_results q
  | requested r => exact queueRequest_results q r
  | injected r => exact injectRequest_results q r
  | scanned scanSet period => exact scanExpiry_results q scanSet period

theorem SequencerOp.rested (op : SequencerOp q p) (h : Rested q) : Rested p := by
  cases op with
  | same => exact h
  | withdrawn => exact rested_gapWithdraw h
  | offered => exact fun idle => { h idle with gap := nofun }
  | ready => exact rested_gapReady h
  | requested r => exact rested_arbitrate _
  | injected r => exact rested_injectRequest r h
  | scanned scanSet period => exact rested_scanExpiry scanSet period h

end

/-! ### The operations -/

/-- One operation on what the laws of the bridge and the sequencer read. -/
inductive BridgeOp (s : State) : State → Prop
  /-- One that touches nothing of it. -/
  | quiet {t : State} (same : bridgeView t = bridgeView s) : BridgeOp s t
  /-- TRC hands its demand (R84). -/
  | handed (atOnce : Bool) : BridgeOp s (handDemand s atOnce)
  /-- A trip (R109). -/
  | tripped (on : s.mbr.bridge = .drive ∨ s.mbr.bridge = .gap) : BridgeOp s (bridgeTripped s)
  /-- A lockout ends a trip, and TRC hands the demand that opens the bridge (R93, R111, R112). -/
  | lockedOut {v : State} (same : bridgeView v = bridgeView (lockoutOpens s)) (off : demandedMode v.trc.state = .off) :
      BridgeOp s (handDemand v false)
  /-- An overload in TRIPPED awaits its retry (R112). -/
  | retryAwaited (tripped : s.mbr.bridge = .tripped) : BridgeOp s (s.setMbr { s.mbr with retryTimer := some retryTime })
  /-- The retry (R113). -/
  | retried (tripped : s.mbr.bridge = .tripped) : BridgeOp s (retried s)
  | periodEnd : BridgeOp s (periodEnd s)
  | settled : BridgeOp s (settleExpiry s)
  /-- TRC asks for a gap, which MSQ passes to MBR (R78, R105, R124). -/
  | offered (free : s.trc.outstanding = false) {t : Trc} (out : t.outstanding = true) : BridgeOp s (gapOffer (s.setTrc t))
  /-- A block queues one of the routine requests (R127). -/
  | requested {r : Request} (routine : routineRequest r) : BridgeOp s (s.setMsq (queueRequest s.msq r))
  /-- A block raises one of the injected requests (R121). -/
  | injected {r : Inject} (sound : injectSound r) : BridgeOp s (injectRaised s r)
  | scanned (scanSet period : Nat) : BridgeOp s (s.setMsq (scanExpiry s.msq scanSet period))

/-- What can be done by such operations one after another. -/
abbrev BridgeReaches : State → State → Prop := Relation.ReflTransGen BridgeOp

section
variable {sense : Prop} {s t : State}

theorem abandonGap_sequencer (s : State) : SequencerOp s.msq (abandonGap s).msq := by
  simp only [abandonGap]
  split
  · exact .same
  · exact .withdrawn

theorem handDemand_sequencer (s : State) (atOnce : Bool) : SequencerOp s.msq (handDemand s atOnce).msq := by
  obtain ⟨-, ⟨msq, -⟩ | ⟨msq, -⟩, -⟩ := handDemand_spec s atOnce <;> rw [msq]
  · exact .same
  · exact .withdrawn

theorem BridgeOp.sequencer (op : BridgeOp s t) : SequencerOp s.msq t.msq := by
  have msq {u v : State} (same : bridgeView u = bridgeView v) : u.msq = v.msq := by
    simp only [bridgeView, Prod.mk.injEq] at same
    tauto
  cases op with
  | quiet same => rw [msq same]; exact .same
  | handed atOnce => exact handDemand_sequencer s atOnce
  | tripped => rw [bridgeTripped, abandonGap_bridgeStop]; exact abandonGap_sequencer s
  | @lockedOut v same =>
    have kept : (lockoutOpens s).msq = s.msq := by
      simp only [lockoutOpens]
      split <;> rfl
    exact kept ▸ msq same ▸ handDemand_sequencer v false
  | retryAwaited | retried => exact .same
  | periodEnd =>
    simp only [Machine.periodEnd]
    (repeat' split) <;> exact .same
  | settled =>
    simp only [settleExpiry]
    split
    · exact .ready
    · exact .same
  | offered =>
    simp only [gapOffer]
    (repeat' split) <;> first | exact .same | exact .offered
  | requested => exact .requested _
  | injected => exact .injected _
  | scanned => exact .scanned _ _

/-! ### The laws through an operation -/

/-- A request that is not the gap's own. -/
theorem BridgeLaw.request (h : BridgeLaw sense s) {q : Msq} (law : SequencerLaw q) (gap : GapSourceKept s.msq q)
    (motor : s.mbr.sample ≠ .present → motorConverting s.msq = true → motorConverting q = true) :
    BridgeLaw sense (s.setMsq q) :=
  { h with
    msq := law
    gap := by
      obtain ⟨pending, phase, settle, offered, ready, outstanding⟩ := h.gap
      rcases gap with same | ⟨was, is⟩
      · rw [← same] at offered ready outstanding
        exact ⟨pending, phase, settle, offered, ready, outstanding⟩
      · refine ⟨pending, phase, settle, ?_, ?_, ?_⟩
        · simpa [was, is] using offered
        · simpa [was, is] using ready
        · simpa [was, is] using outstanding
    sense := fun on => by
      obtain ⟨hold, code, sample, past⟩ := h.sense on
      exact ⟨hold, code, fun mark => motor mark (sample mark), past⟩ }

theorem BridgeLaw.injected (h : BridgeLaw sense s) {r : Inject} (sound : injectSound r) :
    BridgeLaw sense (injectRaised s r) := by
  have sampled : BridgeLaw sense (s.setMbr { s.mbr with sample := .present }) :=
    { h with
      sense := fun on => by
        obtain ⟨hold, code, -, past⟩ := h.sense on
        exact ⟨hold, code, nofun, past⟩ }
  exact sampled.request (h.msq.injectRequest sound) (gapSourceKept_injectRequest s.msq r) fun mark => absurd rfl mark

theorem BridgeLaw.periodEnd (h : BridgeLaw sense s) : BridgeLaw sense (periodEnd s) := by
  by_cases drive : s.mbr.bridge = .drive
  case neg => rwa [periodEnd_idle drive]
  have mode := drive_of_allowed h.allowed (.inl drive)
  by_cases pending : s.mbr.gap = .pending
  case neg =>
    rw [periodEnd_drive drive pending]
    have clear := h.clear (h.noGap (by simp [drive]) pending) (by simp [drive])
    exact { clear.startPeriod drive fun on => by simpa [drive] using (h.sense on).1 with allowed := h.allowed }
  case pos =>
    rw [periodEnd_gap drive pending]
    obtain ⟨-, -, -, offered, ready, outstanding⟩ := h.gap
    exact {
      period := iff_of_false nofun nofun
      closed := fun _ => rfl
      retry := fun timer => absurd (drive.symm.trans (h.retry timer)) nofun
      gap := ⟨nofun, iff_of_true (.inl rfl) rfl, iff_of_true rfl rfl, iff_of_true (offered.mpr (.inl pending)) (.inr rfl),
        ready.trans (iff_of_false (by simp [pending]) nofun), outstanding⟩
      msq := h.msq
      sense := fun on => by
        obtain ⟨hold, code, sample, -⟩ := h.sense on
        exact ⟨fun held => by simpa [drive] using hold held, code, sample, nofun⟩
      allowed := allowed_of_drive mode (.inr (.inl rfl)) }

theorem BridgeLaw.settled (h : BridgeLaw sense s) : BridgeLaw sense (settleExpiry s) := by
  by_cases timer : s.mbr.settleTimer = none
  case pos => rwa [settleExpiry_stopped timer]
  rw [settleExpiry_running timer]
  obtain ⟨-, phase, settle, offered, ready, outstanding⟩ := h.gap
  have settling : s.mbr.gap = .settling := settle.mp (Option.isSome_iff_ne_none.mpr timer)
  have source : s.msq.gap = .offered := offered.mpr (.inr settling)
  have started : (gapReady s.msq).gap = .pending ∨ (gapReady s.msq).gap = .converting := by
    rw [gapReady, if_pos source]
    exact (arbitrate_gapSource _).imp id fun ⟨_, converting⟩ => converting
  have bridge : s.mbr.bridge = .gap := phase.mp (.inl settling)
  have out : s.trc.outstanding = true := outstanding.mpr (by simp [source])
  exact { h with
    gap := by rcases started with gap | gap <;> simp [GapSafe, gap, bridge, out]
    msq := h.msq.gapReady
    sense := fun on => by
      obtain ⟨hold, code, sample, past⟩ := h.sense on
      exact ⟨hold, code, fun mark => motorConverting_gapReady (sample mark), past⟩ }

theorem BridgeLaw.offered (h : BridgeLaw sense s) (free : s.trc.outstanding = false) {t : Trc}
    (out : t.outstanding = true) : BridgeLaw sense (gapOffer (s.setTrc t)) := by
  obtain ⟨-, phase, settle, offered, ready, outstanding⟩ := h.gap
  have source : s.msq.gap = .noRequest := by simpa [free] using outstanding
  have gap : s.mbr.gap = .noGap := by
    simp only [source, reduceCtorEq, or_self, false_iff, not_or] at offered ready
    obtain ⟨pending, settling⟩ := offered
    cases gap : s.mbr.gap
    case noGap => rfl
    all_goals contradiction
  have refused : BridgeLaw sense ((s.setTrc t).setTrc { t with outstanding := false }) :=
    h.congr (by simp [bridgeView, free])
  cases bridge : s.mbr.bridge
  case gap => simp [gap, bridge] at phase
  case drive =>
    rw [gapOffer_taken (s := s.setTrc t) bridge gap]
    exact { h with
      gap := by simpa [GapSafe, bridge, out, gap] using settle
      msq := h.msq.gapSource (by simp [source]) nofun }
  all_goals
    rw [gapOffer_refused (s := s.setTrc t) (by simp [bridge])]
    exact refused

theorem BridgeLaw.op (h : BridgeLaw sense s) (op : BridgeOp s t) : BridgeLaw sense t := by
  cases op with
  | quiet same => exact h.congr same
  | handed atOnce => exact h.toBridgeSound.handDemand (fun _ => h.allowed) atOnce
  | tripped on =>
    have sound := h.toBridgeSound.bridgeTripped (by rcases on with bridge | bridge <;> simp [bridge])
    have mode := drive_of_allowed h.allowed (on.imp_right .inl)
    have tripped : bridgeTripped s = holdBegun (bridgeStop (abandonGap s) .tripped) :=
      congrArg holdBegun (abandonGap_bridgeStop s .tripped)
    have kept : (abandonGap s).mbr.mode = s.mbr.mode := congrArg (fun b => b.2.1.1) (abandonGap_bridging s)
    refine { sound with allowed := ?_ }
    rw [tripped]
    exact allowed_of_drive (kept.trans mode) (.inr (.inr rfl))
  | @lockedOut v same off =>
    by_cases tripped : s.mbr.bridge = .tripped
    case neg =>
      have opens : lockoutOpens s = s := if_neg tripped
      have law := h.congr (opens ▸ same)
      exact law.toBridgeSound.handDemand (fun _ => law.allowed) false
    case pos =>
      have opens : lockoutOpens s = bridgeOff (endTrip s) := if_pos tripped
      have mode := drive_of_allowed h.allowed (.inr (.inr tripped))
      have kept : v.mbr.mode = (lockoutOpens s).mbr.mode := congrArg (fun view => view.2.1) same
      refine ((h.clear_endTrip tripped).bridgeOff.congr (opens ▸ same)).handDemand (fun stays => ?_) false
      rw [off, kept, opens] at stays
      exact absurd (stays.trans mode) nofun
  | retryAwaited tripped => exact { h with retry := fun _ => tripped }
  | retried tripped =>
    have sound := (h.clear_endTrip tripped).bridgeStart
    exact { sound with allowed := allowed_of_drive (drive_of_allowed h.allowed (by simp [tripped])) (.inl rfl) }
  | periodEnd => exact h.periodEnd
  | settled => exact h.settled
  | offered free out => exact h.offered free out
  | requested routine =>
    exact h.request (h.msq.queueRequest routine) (gapSourceKept_queueRequest _ _) fun _ motor =>
      motorConverting_queueRequest motor _
  | injected sound => exact h.injected sound
  | scanned scanSet period =>
    exact h.request (h.msq.scanExpiry scanSet period) (gapSourceKept_scanExpiry _ _ _) fun _ motor =>
      motorConverting_scanExpiry motor scanSet period

end

end Sys2Proof.Laws
end

section
/-!
SUPPORT. The events of every block as the laws of the bridge and the sequencer see them, one lemma an operation: it reaches its next
state by the operations on the bridge and the sequencer alone.
-/
namespace Sys2Proof.Laws

open Sys2Proof.Machine

/-! ### The events at TRC -/

section
variable {s t u : State}

theorem bridges_quiet (same : bridgeView t = bridgeView s) : BridgeReaches s t := .single (.quiet same)

theorem bridges_after (h : BridgeReaches u t) (same : bridgeView u = bridgeView s) : BridgeReaches s t :=
  (bridges_quiet same).trans h

theorem bridges_handed {v : State} (same : bridgeView v = bridgeView s) (atOnce : Bool) :
    BridgeReaches s (handDemand v atOnce) := bridges_after (.single (.handed atOnce)) same

/-- What the end of an event hands to MBR, as the laws of the bridge see it. -/
theorem tractionEnd_bridgeView (s : State) (t : Trc) (tick work atOnce : Bool) :
    ∃ v, tractionEnd s.trc tick work atOnce (s.setTrc t) = handDemand v atOnce ∧
      bridgeView v = bridgeView (s.setTrc t) ∧ v.trc.state = t.state := by
  obtain ⟨v, p, eq, mbr, msq, -, trc⟩ := tractionEnd_handed s t tick work atOnce
  refine ⟨v, eq, ?_, by rw [trc]; rfl⟩
  rw [bridgeView, mbr, msq, trc]
  rfl

/-- An event at TRC is quiet until MBR is handed the demand. -/
theorem bridges_ends (s : State) {t : Trc} (same : bridgeView (s.setTrc t) = bridgeView u) (tick work atOnce : Bool) :
    BridgeReaches u (tractionEnd s.trc tick work atOnce (s.setTrc t)) := by
  obtain ⟨v, eq, view, -⟩ := tractionEnd_bridgeView s t tick work atOnce
  rw [eq]
  exact bridges_handed (view.trans same) atOnce

theorem bridges_event {t : Trc} (tick work atOnce : Bool) (out : t.outstanding = s.trc.outstanding := by rfl) :
    BridgeReaches s (tractionEnd s.trc tick work atOnce (s.setTrc t)) :=
  bridges_ends s (by simp [bridgeView, out]) tick work atOnce

end

/-! What an event makes of TRC leaves the outstanding request. -/

section
variable (s : State) (t : Trc)

@[simp] theorem idleOrRunning_outstanding : (idleOrRunning t).outstanding = t.outstanding := by
  simp only [idleOrRunning]
  (repeat' split) <;> rfl

@[simp] theorem failsafeEntered_outstanding : (failsafeEntered t).outstanding = t.outstanding := by
  simp only [failsafeEntered]
  split <;> rfl

@[simp] theorem retryEntered_outstanding : (retryEntered t).outstanding = t.outstanding := by
  simp only [retryEntered]
  (repeat' split) <;> simp

@[simp] theorem ticked_outstanding : (ticked s).outstanding = s.trc.outstanding := by
  have driven : (tickDriven s).outstanding = s.trc.outstanding := by
    simp only [tickDriven, tickDuty]
    (repeat' split) <;> rfl
  have landed : (tickLanded s).outstanding = s.trc.outstanding := by
    simp only [tickLanded]
    split <;> exact driven
  simp only [ticked, tickState]
  (repeat' split) <;> exact landed

end

section
variable (s : State)

theorem bridges_retarget : BridgeReaches s (retarget s) :=
  bridges_event false false false (by simp [workOutTarget])

theorem bridges_driveArmed (step : Nat) (d : Dir) : BridgeReaches s (driveArmed s step d) :=
  bridges_event false false false

theorem bridges_driveCommand (step : Nat) (d : Dir) : BridgeReaches s (driveCommand s step d) := by
  simp only [driveCommand]
  split
  · exact bridges_driveArmed s step d
  · split
    · rw [rearm_eq]
      exact bridges_event false false false
    · exact .refl

theorem bridges_emergencyHalt : BridgeReaches s (emergencyHalt s) := by
  cases state : s.trc.state <;> simp only [emergencyHalt, state]
  case emergency | lockout | stalled => exact .refl
  all_goals exact bridges_event false false false

theorem bridges_statedInverted : BridgeReaches s (statedInverted s) := by
  simp only [statedInverted]
  split
  · exact bridges_driveArmed s _ _
  · exact bridges_event false false false

theorem bridges_lossNotice : BridgeReaches s (lossNotice s) := by
  cases state : s.trc.state <;> simp only [lossNotice, state]
  case running | reversing => exact bridges_event false false false (by simp [disarmed])
  case idle | tripped | suspended => exact bridges_event false false false
  all_goals exact .refl

theorem bridges_tripNotice : BridgeReaches s (tripNotice s) := by
  simp only [tripNotice]
  split
  · exact bridges_event false false false
  · exact .refl

theorem bridges_retryNotice : BridgeReaches s (retryNotice s) := by
  simp only [retryNotice]
  split
  · exact bridges_event false false false (by simp)
  · exact .refl

theorem bridges_stallExpiry : BridgeReaches s (stallExpiry s) := by
  simp only [stallExpiry]
  split
  · exact bridges_event false false false
  · exact .refl

theorem bridges_tractionPower (p : PowerState) : BridgeReaches s (tractionPower s p) := by
  cases p <;> simp only [tractionPower]
  case init | hold => exact bridges_event false false false
  case coast => exact .refl
  case normal =>
    split
    · exact bridges_event false false false
    · exact .refl

theorem bridges_tractionCap (dcap : Nat) : BridgeReaches s (tractionCap s dcap) := by
  rw [tractionCap_eq]
  obtain ⟨-, -, out⟩ := capTaken_timers s dcap
  exact bridges_event false true _ out

theorem bridges_rampTick : BridgeReaches s (rampTick s) := by
  cases moves : tickMoves s.trc.state
  · rw [rampTick, if_neg (by simp [moves])]
  · rw [rampTick_eq moves]
    exact bridges_event true false false (by simp)

/-- TRC with its request answered (R80). -/
def bemfAnswered (s : State) : State := s.setTrc { s.trc with outstanding := false }

/-- A result answers TRC's request, and is an event at TRC where the regulator runs. -/
theorem bridges_bemfResult (raw : Nat) : BridgeReaches (bemfAnswered s) (bemfResult s raw) := by
  by_cases runs : (s.trc.state = .running ∨ s.trc.state = .reversing) ∧ s.regOn = true
  case pos =>
    obtain ⟨state, on⟩ := runs
    rw [bemfResult_regulated raw state on]
    exact bridges_ends s (by rfl) false true false
  case neg =>
    rw [not_and_or, not_or, Bool.not_eq_true] at runs
    rw [bemfResult_measured raw runs]
    exact bridges_quiet rfl

/-! ### The events at MBR -/

theorem bridges_bemfExpiry : BridgeReaches s (bemfExpiry s) := by
  by_cases stopped : s.trc.bemfTimer = none
  · rw [show bemfExpiry s = s by simp [bemfExpiry, stopped]]
  · rw [bemfExpiry_eq stopped]
    split
    case isTrue => exact bridges_quiet rfl
    case isFalse free => exact .single (.offered (by simpa using free) rfl)

/-- A lockout ends a trip and is an event at TRC. -/
theorem bridges_lockout : BridgeReaches s (lockoutNotice (lockoutOpens s)) := by
  rw [lockoutNotice_eq]
  obtain ⟨v, eq, view, state⟩ :=
    tractionEnd_bridgeView (lockoutOpens s) (lockedOut (lockoutOpens s).trc) false false false
  rw [eq]
  refine .single (.lockedOut (view.trans ?_) (state ▸ lockedOut_off _))
  have out : (lockedOut (lockoutOpens s).trc).outstanding = (lockoutOpens s).trc.outstanding := by
    simp only [lockedOut]
    split <;> rfl
  simp only [bridgeView, setTrc_mbr, setTrc_msq, setTrc_trc, out]

theorem bridges_judgeOverload : BridgeReaches s (judgeOverload s) := by
  simp only [judgeOverload]
  split
  · exact bridges_after (bridges_lockout _) rfl
  · have counted : bridgeView (s.setMbr { s.mbr with overloads := s.mbr.overloads + 1 }) = bridgeView s := rfl
    split
    case isTrue tripped => exact bridges_after (.single (.retryAwaited tripped)) counted
    case isFalse => exact bridges_quiet counted

theorem bridges_judgeTrip (code : Nat) : BridgeReaches s (judgeTrip s code) := by
  simp only [judgeTrip]
  split
  · exact bridges_after (bridges_lockout _) rfl
  · exact bridges_after (bridges_judgeOverload _) rfl

theorem bridges_tripMeasure : BridgeReaches s (tripMeasure s) := by
  have raised : BridgeReaches s (injectRaised s tripInject) := .single (.injected (.inl rfl))
  simp only [tripMeasure]
  split
  · exact raised.trans (bridges_quiet rfl)
  · exact bridges_after (bridges_judgeOverload _) rfl

theorem bridges_overcurrent (milliamps : Nat) : BridgeReaches s (overcurrent s milliamps) := by
  simp only [overcurrent]
  split
  case isTrue acts =>
    simp only [tripActs, Bool.and_eq_true, Bool.or_eq_true, decide_eq_true_eq] at acts
    obtain ⟨on, -⟩ := acts
    exact (Relation.ReflTransGen.single (.tripped on)).trans ((bridges_tripNotice _).trans (bridges_tripMeasure _))
  case isFalse => exact .refl

theorem bridges_retryExpiry : BridgeReaches s (retryExpiry s) := by
  simp only [retryExpiry]
  split
  case isTrue waits =>
    simp only [Bool.and_eq_true, decide_eq_true_eq] at waits
    obtain ⟨-, tripped⟩ := waits
    exact (Relation.ReflTransGen.single (.retried tripped)).trans (bridges_retryNotice _)
  case isFalse => exact .refl

theorem bridges_tripFreeExpiry : BridgeReaches s (tripFreeExpiry s) := by
  rw [tripFreeExpiry_eq]
  split
  · exact .refl
  · exact bridges_quiet rfl

theorem bridges_scanExpires : BridgeReaches s (scanExpires s) := by
  simp only [scanExpires]
  split
  · exact .single (.scanned _ _)
  · exact .refl

/-! ### Smoke (R167, R168) -/

theorem bridges_smokeRequest : BridgeReaches s (smokeRequest s) := .single (.requested (.inl rfl))

theorem bridges_smokeEnd (before : SmokeState) : BridgeReaches s (smokeEnd before s) := bridges_quiet (by simp [bridgeView])

theorem bridges_smokeEnable (on : Bool) : BridgeReaches s (smokeEnable s on) := by
  have asked (k : Smk) : BridgeReaches s (smokeRequest (s.setSmk k)) := bridges_after (bridges_smokeRequest _) rfl
  simp only [smokeEnable, smokeEnableOn]
  split
  · split
    · exact (asked _).trans (bridges_smokeEnd _ _)
    · exact bridges_quiet rfl
  · exact bridges_quiet (by simp [bridgeView])

theorem bridges_smokeRequestExpiry : BridgeReaches s (smokeRequestExpiry s) := by
  simp only [smokeRequestExpiry]
  split
  · exact bridges_after (bridges_smokeRequest _) rfl
  · exact .refl

/-! ### The power path (R82, R96, R97, R182 to R189) -/

theorem bridges_powerEnd : BridgeReaches s (powerEnd s) := by
  have cap : BridgeReaches s (publishDcap s) := by
    simp only [publishDcap]
    split
    · exact .refl
    · exact bridges_after (bridges_tractionCap _ _) rfl
  exact cap.trans (bridges_quiet (by simp [powerEnd, bridgeView]))

theorem bridges_announce (p : PowerState) : BridgeReaches s (announce s p) :=
  (bridges_tractionPower s p).trans (bridges_quiet (by simp [announce, bridgeView]))

/-- A new power state, announced and published. -/
theorem bridges_powerState {u : State} (p : PowerState) (on : Bool) (same : bridgeView u = bridgeView s := by rfl) :
    BridgeReaches s (publish (announce u p) (.coasting on)) :=
  (bridges_after (bridges_announce u p) same).trans (bridges_quiet rfl)

theorem bridges_enterNormal : BridgeReaches s (enterNormal s) := by
  simp only [enterNormal]
  split
  · exact bridges_powerState s .normal false
  · exact bridges_after (bridges_announce _ .normal) rfl

theorem bridges_bufferRequest : BridgeReaches s (bufferRequest s) := .single (.requested (.inr rfl))

theorem bridges_enterCoast : BridgeReaches s (enterCoast s) := by
  have asked (p : Ppm) : BridgeReaches s (bufferRequest (s.setPpm p)) := bridges_after (bridges_bufferRequest _) rfl
  exact (asked _).trans (bridges_powerState _ .coast true)

theorem bridges_enterHold : BridgeReaches s (enterHold s) := bridges_powerState s .hold false

theorem bridges_setSupply (x : Supply) (v : SupplyState) : BridgeReaches s (setSupply s x v) :=
  bridges_quiet (by simp [bridgeView])

theorem bridges_supplyActive (x : Supply) : BridgeReaches s (supplyActive s x) := by
  simp only [supplyActive]
  split
  · exact bridges_quiet rfl
  · exact bridges_after (bridges_enterNormal _) rfl

theorem bridges_bufferActive : BridgeReaches s (bufferActive s) := by
  simp only [bufferActive]
  split
  · exact bridges_after (bridges_enterCoast _) rfl
  · exact bridges_quiet rfl

theorem bridges_supplySelect (x : Supply) : BridgeReaches s (supplySelect s x) := by
  simp only [supplySelect]
  (repeat' split) <;> first
    | exact bridges_supplyActive s x
    | exact .refl

theorem bridges_supplyQualified (x : Supply) : BridgeReaches s (supplyQualified s x) :=
  (bridges_setSupply s x _).trans (bridges_supplySelect _ x)

theorem bridges_activeLost (x : Supply) : BridgeReaches s (activeLost s x) := by
  simp only [activeLost]
  split
  · exact bridges_supplyActive s _
  · exact bridges_bufferActive s

theorem bridges_fastReturnRaise (x : Supply) : BridgeReaches s (fastReturnRaise s x) := by
  have sound : injectSound ⟨supplyChannel x, .ppm, true⟩ := by cases x <;> simp [injectSound, supplyChannel]
  simp only [fastReturnRaise]
  split
  · exact (Relation.ReflTransGen.single (.injected sound)).trans (bridges_setSupply _ x _)
  · exact .refl

theorem bridges_presenceEvent (was : Bool) (x : Supply) : BridgeReaches s (presenceEvent was x s) := by
  rcases presenceEvent_cases was x s with ⟨-, eq⟩ | ⟨-, -, eq⟩ | ⟨-, -, eq⟩ <;> rw [eq]
  · exact bridges_after (bridges_powerEnd (startQualifying s x)) (by simp [bridgeView])
  · have absent : BridgeReaches s (supplyAbsent s x) := bridges_setSupply s x _
    simp only [presenceLoss]
    refine Relation.ReflTransGen.trans ?_ (bridges_powerEnd _)
    split
    · exact absent.trans ((bridges_activeLost _ x).trans (bridges_fastReturnRaise _ x))
    · exact absent

theorem bridges_settingsInstalled : BridgeReaches s (settingsInstalled s) := by
  have follows (u : State) (x : Supply) : BridgeReaches u (presenceFollows u x) :=
    (bridges_setSupply u x _).trans (bridges_presenceEvent _ _ x)
  exact (follows s .track).trans (follows _ .battery)

theorem bridges_qualificationExpiry (x : Supply) : BridgeReaches s (qualificationExpiry s x) := by
  simp only [qualificationExpiry]
  split
  · exact (bridges_supplyQualified s x).trans (bridges_powerEnd _)
  · exact .refl

theorem bridges_fastReturnResult (x : Supply) (code : Nat) : BridgeReaches s (fastReturnResult s x code) := by
  have heard (v : SupplyState) : BridgeReaches s (setSupply s x v) := bridges_setSupply s x v
  simp only [fastReturnResult]
  split
  · exact (heard _).trans (bridges_supplyQualified _ x)
  · exact heard _

theorem bridges_powerReading (c : Channel) (source : Source) (code : Nat) :
    BridgeReaches s (powerReading s c source code) := by
  have fastReturn (x : Supply) : BridgeReaches s (if source = .inject then fastReturnResult s x code else s) := by
    split
    · exact bridges_fastReturnResult s x code
    · exact .refl
  have buffer : BridgeReaches s (bufferReading s code) := by
    simp only [bufferReading]
    split
    · exact bridges_enterHold s
    · exact .refl
  cases c <;> simp only [powerReading]
  case trackV => exact (fastReturn .track).trans (bridges_powerEnd _)
  case batteryV => exact (fastReturn .battery).trans (bridges_powerEnd _)
  case bufferV => exact buffer.trans (bridges_powerEnd _)
  case supplyI => exact bridges_after (bridges_powerEnd (currentReading s code)) (by simp [bridgeView])
  case boardT => exact bridges_after (bridges_powerEnd (boardReading s code)) rfl
  all_goals exact .refl

theorem bridges_coastExpiry : BridgeReaches s (coastExpiry s) := by
  simp only [coastExpiry]
  split
  · exact (bridges_enterHold s).trans (bridges_powerEnd _)
  · exact .refl

/-- The other timers of PPM. -/
theorem bridges_powerTimers :
    BridgeReaches s (bufferExpiry s) ∧ BridgeReaches s (overExpiry s) ∧ BridgeReaches s (underExpiry s) := by
  simp only [bufferExpiry, overExpiry, underExpiry]
  refine ⟨?_, ?_, ?_⟩ <;> split
  case refine_1.isTrue => exact bridges_after ((bridges_bufferRequest _).trans (bridges_powerEnd _)) rfl
  case refine_2.isTrue | refine_3.isTrue => exact bridges_after (bridges_powerEnd _) rfl
  all_goals exact .refl

theorem bridges_lossExpiry : BridgeReaches s (lossExpiry s) := by
  have stopped : BridgeReaches s (signalSet (s.setDsp { s.dsp with lossTimer := none })) := by
    simp only [signalSet]
    split <;> exact bridges_quiet rfl
  simp only [lossExpiry]
  split
  · split
    · exact stopped.trans (bridges_lossNotice _)
    · exact stopped
  · exact .refl

/-! ### The deliveries (R65, R119) -/

/-- A code delivered, TRC's request answered first where it goes to TRC. -/
theorem bridges_codeDelivered (c : Conversion) (code : Nat) :
    BridgeReaches (if c.requester = .trc then bemfAnswered s else s) (codeDelivered s c code) := by
  cases requester : c.requester <;> simp only [codeDelivered, requester, reduceCtorEq, if_true, if_false]
  case mbr => exact bridges_judgeTrip s code
  case trc => exact bridges_bemfResult s code
  case smk => exact bridges_quiet (by simp [bridgeView])
  case ppm | scan => exact bridges_powerReading s _ _ code

theorem bridges_deliverEntry (new : Outputs) (e : MapEntry) (on : Bool) : BridgeReaches s (deliverEntry new e on s) := by
  rcases action : e.action with _ | (⟨n, d⟩ | c | _ | _ | _ | _) <;> simp only [deliverEntry, action]
  case none => exact .refl
  case some.lamp => exact bridges_quiet (by simp [bridgeView])
  case some.cue => split <;> exact bridges_quiet (by simp [bridgeView])
  case some.smoke =>
    simp only [deliverSmoke]
    split
    · exact .refl
    · exact bridges_after (bridges_smokeEnable _ _) rfl
  case some.mute => exact bridges_quiet (by simp [bridgeView])
  case some.shunt =>
    simp only [deliverShunt]
    split
    · exact .refl
    · exact bridges_after (bridges_retarget _) rfl
  case some.momentumOff =>
    simp only [deliverMomentum]
    split
    · exact .refl
    · exact bridges_quiet rfl

section
variable {s}

theorem bridges_setFnu {t : State} (f : Fnu) (h : BridgeReaches s t) : BridgeReaches s (t.setFnu f) :=
  h.trans (bridges_quiet rfl)

theorem bridges_delivered {t : State} (new : Outputs) (e : MapEntry) (on : Bool) (h : BridgeReaches s t) :
    BridgeReaches s (deliverEntry new e on t) :=
  h.trans (bridges_deliverEntry t new e on)

end

theorem bridges_fnuSettle : BridgeReaches s (fnuSettle s) :=
  fnuSettle_induction (fun _ f => bridges_setFnu f) (fun new e on _ => bridges_delivered new e on) .refl

theorem bridges_functionsHanded (group states low high : Nat) :
    BridgeReaches s (functionsHanded s group states low high) :=
  functionsHanded_induction (fun _ f => bridges_setFnu f) (fun new e on _ => bridges_delivered new e on) .refl ..

theorem bridges_mapInstalled (oldMap : List Byte) : BridgeReaches s (mapInstalled s oldMap) :=
  mapInstalled_induction (fun _ f => bridges_setFnu f) (fun new e on _ => bridges_delivered new e on) .refl oldMap

end

end Sys2Proof.Laws
end

section
/-!
SUPPORT. The completion of a conversion: the result table, the end of a gap, the delivery and the arbiter (R107, R110, R117 to R119).
-/
namespace Sys2Proof.Laws

open Sys2Proof.Machine

/-! ### What is reached by the operations -/

section
variable {sense : Prop} {s t : State}

theorem BridgeLaw.reaches (h : BridgeLaw sense s) (reaches : BridgeReaches s t) : BridgeLaw sense t := by
  induction reaches with
  | refl => exact h
  | tail _ last ih => exact ih.op last

theorem rested_reaches (h : Rested s.msq) (reaches : BridgeReaches s t) : Rested t.msq := by
  induction reaches with
  | refl => exact h
  | tail _ last ih => exact last.sequencer.rested ih

theorem results_reaches (reaches : BridgeReaches s t) : t.msq.results = s.msq.results := by
  induction reaches with
  | refl => rfl
  | tail _ last ih => exact last.sequencer.results.trans ih

end

/-! ### The result table (R119) -/

section
variable {q : Msq}

theorem results_conversionTaken (q : Msq) (c : Conversion) (code : Nat) :
    (conversionTaken q c code).results = resultWrite q.results c.channel code := by
  cases source : c.source <;> simp only [conversionTaken, source]

theorem channelNumber_lt (c : Channel) : channelNumber c < 8 := by cases c <;> decide

theorem channelNumber_inj {c d : Channel} (h : channelNumber c = channelNumber d) : c = d := by
  revert h
  cases c <;> cases d <;> decide

/-- The entry of the channel is written, and no other. -/
theorem resultOf_written {p : Msq} {c : Channel} {code : Nat} (size : q.results.length = 8)
    (written : p.results = resultWrite q.results c code) (k : Channel) :
    resultOf p k = if k = c then code else resultOf q k := by
  simp only [resultOf, written, resultWrite, setAt]
  split
  case isTrue same => simp [same, size, channelNumber_lt c]
  case isFalse other =>
    have apart : channelNumber c ≠ channelNumber k := fun h => other (channelNumber_inj h).symm
    simp [apart]

/-! ### What a conversion leaves to the arbiter -/

namespace SequencerLaw

/-- A void conversion is a gap's that has been abandoned (R126). -/
theorem voidRuns (law : SequencerLaw q) {c : Conversion} (runs : q.converting = some c) (void : c.void = true) :
    c.source = .gap ∧ q.gap ≠ .converting := by
  have sound := law.runs c runs
  cases source : c.source <;> simp only [conversionSound, source] at sound
  case gap =>
    obtain ⟨-, -, stands⟩ := sound
    exact ⟨rfl, fun converting => by simp [void] at stands; exact stands converting⟩
  all_goals
    obtain ⟨stands, -⟩ := sound
    exact absurd (stands.symm.trans void) nofun

/-- The converter becomes idle, with the slot left waiting or EMPTY and the gap source not CONVERTING. -/
theorem idled (law : SequencerLaw q) {slot : Slot} {gap : GapSource} {pass : List Channel} {results : List Nat}
    (waits : ∀ r, slot = .waiting r → q.slot = .waiting r) (free : ∀ r, slot ≠ .converting r) (other : gap ≠ .converting)
    (bemf : .bemf ∉ pass) (codes : ∀ n ∈ results, n ≤ 4095) (size : results.length = 8) :
    SequencerLaw { q with converting := none, slot := slot, gap := gap, pass := pass, results := results } :=
  { law with
    codes := codes
    size := size
    pass := bemf
    runs := nofun
    gap := fun h => absurd h other
    waits := fun r h => ⟨(law.waits r (waits r h)).1, .inl rfl⟩
    injects := fun r h => absurd h (free r) }

/-- The slot is being converted, and the gap source CONVERTING, only by a conversion of their own. -/
theorem slot_apart (law : SequencerLaw q) {c : Conversion} (runs : q.converting = some c) (other : c.source ≠ .inject)
    (r : Inject) : q.slot ≠ .converting r := fun h => by
  obtain ⟨-, running⟩ := law.injects r h
  simp only [runs, Option.map_some, Option.some.injEq] at running
  exact other running

theorem gap_apart (law : SequencerLaw q) {c : Conversion} (runs : q.converting = some c) (other : c.source ≠ .gap) :
    q.gap ≠ .converting := fun h => by
  have running := law.gap h
  simp only [runs, Option.map_some, Option.some.injEq] at running
  exact other running

theorem freed (law : SequencerLaw q) {c : Conversion} (runs : q.converting = some c) (void : c.void = true) :
    SequencerLaw { q with converting := none } := by
  obtain ⟨source, other⟩ := law.voidRuns runs void
  exact law.idled (fun _ => id) (law.slot_apart runs (by simp [source])) other law.pass law.codes law.size

/-- The result table keeps its size and its range. -/
theorem written (law : SequencerLaw q) (c : Channel) {code : Nat} (range : code ≤ 4095) :
    (∀ n ∈ resultWrite q.results c code, n ≤ 4095) ∧ (resultWrite q.results c code).length = 8 := by
  constructor
  · intro n h
    rcases List.mem_or_eq_of_mem_set h with old | rfl
    · exact law.codes n old
    · exact range
  · exact List.length_set.trans law.size

theorem conversionTaken (law : SequencerLaw q) {c : Conversion} (runs : q.converting = some c) {code : Nat}
    (range : code ≤ 4095) : SequencerLaw (conversionTaken q c code) := by
  obtain ⟨codes, size⟩ := law.written c.channel range
  have slot := law.slot_apart runs
  have gap := law.gap_apart runs
  cases source : c.source <;> simp only [source, ne_eq, reduceCtorEq, not_false_eq_true, forall_const] at slot gap <;>
    simp only [Machine.conversionTaken, source]
  case inject => exact law.idled nofun nofun gap law.pass codes size
  case gap => exact law.idled (fun _ => id) slot nofun law.pass codes size
  case queue => exact law.idled (fun _ => id) slot gap law.pass codes size
  case scan => exact law.idled (fun _ => id) slot gap (fun h => law.pass (List.mem_filter.mp h).1) codes size

/-- TRC is the requester of a gap's conversion alone. -/
theorem trc_iff_gap (law : SequencerLaw q) {c : Conversion} (runs : q.converting = some c) :
    c.requester = .trc ↔ c.source = .gap := by
  have sound := law.runs c runs
  cases source : c.source <;> simp only [conversionSound, source] at sound
  case inject =>
    obtain ⟨-, slot⟩ := sound
    obtain ⟨record, -⟩ := law.injects _ slot
    rcases record with eq | eq | eq <;> cases requester : c.requester <;> simp [requester] at eq ⊢
  case gap =>
    obtain ⟨-, requester, -⟩ := sound
    exact iff_of_true requester rfl
  case queue =>
    obtain ⟨-, eq | eq⟩ := sound <;> cases requester : c.requester <;> simp [requester] at eq ⊢
  case scan =>
    obtain ⟨-, requester, -⟩ := sound
    simp [requester]

end SequencerLaw

end

/-! ### The completion (R119) -/

/-- The code that a conversion reads. -/
def readCode (s : State) (c : Conversion) (code : BitVec 12) : Nat := (codeRead s.mbr c.channel code).toNat

/-- Steps 1 and 2 of R119: the entry is written, and MBR is told of a gap's conversion. -/
def conversionReported (s : State) (c : Conversion) (code : BitVec 12) : State :=
  gapReported ((senseRead s c.channel code).setMsq (conversionTaken s.msq c (readCode s c code))) c

section
variable {sense : Prop} {s : State} {c : Conversion} (code : BitVec 12)

theorem conversionDone_idle (idle : s.msq.converting = none) : conversionDone s code = s := by
  simp only [conversionDone, idle]

variable (runs : s.msq.converting = some c)
include runs

theorem conversionDone_void (void : c.void = true) :
    conversionDone s code = arbiterActs (s.setMsq { s.msq with converting := none }) := by
  simp only [conversionDone, runs, void, if_true]

theorem conversionDone_read (stands : c.void = false) : conversionDone s code =
    arbiterActs (codeDelivered (conversionReported s c code) c (readCode s c code)) := by
  simp only [conversionDone, runs, stands, Bool.false_eq_true, if_false]
  have msq : (senseRead s c.channel code).msq = s.msq := by simp
  rw [msq]
  rfl

end

section
variable {sense : Prop} {s : State} {c : Conversion}

theorem BridgeLaw.arbiterActs (h : BridgeLaw sense s) : BridgeLaw sense (arbiterActs s) :=
  h.request h.msq.arbitrate (arbitrate_gapSource s.msq) fun _ => motorConverting_arbitrate

theorem readCode_le (s : State) (c : Conversion) (code : BitVec 12) : readCode s c code ≤ 4095 :=
  Nat.le_of_lt_succ (codeRead s.mbr c.channel code).isLt

/-- The end of a gap: its conversion has run in a settled gap, and leaves none under way (R107). -/
theorem BridgeLaw.conversionReported_gap (h : BridgeLaw sense s) (runs : s.msq.converting = some c)
    (stands : c.void = false) (source : c.source = .gap) (code : BitVec 12) :
    BridgeLaw sense (bemfAnswered (conversionReported s c code)) := by
  obtain ⟨channel, -, void⟩ := h.msq.gapRuns runs source
  obtain ⟨bridge, ready⟩ := h.bemfSafe c runs channel stands
  obtain ⟨-, -, settle, -⟩ := h.gap
  have other : c.channel ≠ .motorI := by simp [channel]
  let freed := (s.setMsq (conversionTaken s.msq c (readCode s c code))).setMbr { s.mbr with gap := .noGap }
  have ends : conversionReported s c code = bridgeDrive freed := by
    rw [conversionReported, senseRead_other _ _ _ other]
    exact (if_pos source).trans (if_pos ready)
  have answers : bemfAnswered (bridgeDrive freed) = bridgeDrive (bemfAnswered freed) := rfl
  have clear : Clear sense (bemfAnswered freed) := {
    gap := rfl
    settle := Option.not_isSome_iff_eq_none.mp fun timer => by simp [ready] at settle; simp [freed, bemfAnswered, settle] at timer
    source := by
      show (conversionTaken s.msq c _).gap = _
      simp only [conversionTaken, source]
    answered := rfl
    retry := Option.not_isSome_iff_eq_none.mp fun timer => absurd (bridge.symm.trans (h.retry timer)) nofun
    msq := h.msq.conversionTaken runs (readCode_le s c code)
    held := fun on => (h.sense on).2.1
    sample := fun on mark => by
      obtain ⟨-, -, motor, -⟩ := h.sense on
      have motor := motor mark
      simp [motorConverting, runs, channel] at motor }
  rw [ends, answers]
  exact { clear.bridgeDrive with allowed := allowed_of_drive (drive_of_allowed h.allowed (.inr (.inl bridge))) (.inl rfl) }

/-- Any other conversion only frees the converter, and the sense shows what it is to show from then on (R110). -/
theorem BridgeLaw.conversionReported_other (h : BridgeLaw sense s) (runs : s.msq.converting = some c)
    (other : c.source ≠ .gap) (code : BitVec 12) : BridgeLaw sense (conversionReported s c code) := by
  have law := h.msq.conversionTaken runs (readCode_le s c code)
  have gap : (conversionTaken s.msq c (readCode s c code)).gap = s.msq.gap := by
    cases source : c.source <;> simp only [conversionTaken, source]
    exact absurd source other
  have reported : conversionReported s c code =
      (senseRead s c.channel code).setMsq (conversionTaken s.msq c (readCode s c code)) := if_neg other
  rw [reported]
  by_cases motor : c.channel = .motorI
  case pos =>
    rw [senseRead, if_pos motor]
    exact { h with
      gap := by rw [GapSafe, setMsq_msq, gap]; exact h.gap
      msq := law
      sense := fun on => by
        obtain ⟨hold, held, -, past⟩ := h.sense on
        refine ⟨hold, fun kept => ?_, nofun, past⟩
        simp only [setMsq_mbr, setMbr_mbr, motorRead] at kept ⊢
        split at kept
        case isTrue holds => simp only [Bool.and_eq_true] at holds; exact holds.1
        case isFalse => exact held kept }
  case neg =>
    rw [senseRead_other _ _ _ motor]
    refine h.request law (.inl gap) fun _ converting => ?_
    simp [motorConverting, runs, motor] at converting

/-- A completed conversion keeps the laws, and leaves nothing to an idle converter. -/
theorem BridgeLaw.conversionDone (h : BridgeLaw sense s) (rested : Rested s.msq) (code : BitVec 12) :
    BridgeLaw sense (conversionDone s code) ∧ Rested (conversionDone s code).msq := by
  cases runs : s.msq.converting with
  | none =>
    rw [conversionDone_idle code runs]
    exact ⟨h, rested⟩
  | some c =>
    cases void : c.void
    case true =>
      rw [conversionDone_void code runs void]
      obtain ⟨source, -⟩ := h.msq.voidRuns runs void
      obtain ⟨channel, -⟩ := h.msq.gapRuns runs source
      have freed : BridgeLaw sense (s.setMsq { s.msq with converting := none }) :=
        h.request (h.msq.freed runs void) (.inl rfl) fun _ motor => by simp [motorConverting, runs, channel] at motor
      exact ⟨freed.arbiterActs, rested_arbitrate _⟩
    case false =>
      have reported : BridgeLaw sense (if c.requester = .trc then bemfAnswered (conversionReported s c code)
          else conversionReported s c code) := by
        split
        case isTrue requester =>
          exact h.conversionReported_gap runs void ((h.msq.trc_iff_gap runs).mp requester) code
        case isFalse requester =>
          exact h.conversionReported_other runs (fun source => requester ((h.msq.trc_iff_gap runs).mpr source)) code
      rw [conversionDone_read code runs void]
      exact ⟨(reported.reaches (bridges_codeDelivered _ c _)).arbiterActs, rested_arbitrate _⟩

end

end Sys2Proof.Laws
end

section
/-!
PROOFS. Every command and every step keep the laws of the bridge, the gap, the sequencer and the current sense (R101 to R110, R118 to
R130).
-/
namespace Sys2Proof.Laws

open Sys2Proof.Machine

/-! ### The frames and the tables (R20, R25 to R32, R45, R51) -/

section
variable (s : State)

theorem bridges_ownerHeard : BridgeReaches s (ownerHeard s) := by
  simp only [ownerHeard, signalCleared]
  split
  · exact bridges_after (bridges_fnuSettle _) rfl
  · exact bridges_quiet rfl

theorem bridges_dispatch (row : Frame → Bool) {hand : State → Frame → Via → State}
    (handed : ∀ u f via, BridgeReaches u (hand u f via)) : BridgeReaches s (dispatch row hand s) := by
  have taken (f : Frame) (rest : List Frame) : BridgeReaches s (frameTaken s f rest) := bridges_quiet (by simp [bridgeView])
  rcases dispatch_cases row hand s with eq | ⟨f, rest, eq | ⟨via, eq⟩⟩ <;> rw [eq]
  · exact taken f rest
  · exact (taken f rest).trans (handed _ f via)

variable (f : Frame) (via : Via)

theorem bridges_handDrive : BridgeReaches s (handDrive s f via) := by
  simp only [handDrive]
  split
  · exact (bridges_ownerHeard s).trans (bridges_driveCommand _ _ _)
  · exact .refl

theorem bridges_handHaltNormal : BridgeReaches s (handHaltNormal s f via) := by
  simp only [handHaltNormal, haltStated]
  split
  · exact (bridges_ownerHeard s).trans (bridges_driveCommand _ _ _)
  · exact .refl

theorem bridges_handHaltEmergency : BridgeReaches s (handHaltEmergency s f via) := by
  simp only [handHaltEmergency]
  split
  · exact (bridges_ownerHeard s).trans (bridges_emergencyHalt _)
  · exact bridges_emergencyHalt s

theorem bridges_handFunc : BridgeReaches s (handFunc s f via) := by
  cases via
  · exact .refl
  · exact bridges_functionsHanded s _ _ _ _

theorem bridges_addressInstalled (old : AddressEntry) : BridgeReaches s (addressInstalled s old) := by
  simp only [addressInstalled]
  (repeat' split)
  · exact bridges_quiet rfl
  · exact bridges_statedInverted s
  · exact .refl

/-- A table newly in force and its owner's act on it. -/
theorem bridges_tableInstalled (t : TableId) (bytes : List Byte) : BridgeReaches s (tableInstalled s t bytes) := by
  have put {u : State} (h : BridgeReaches (activePut s t bytes) u) : BridgeReaches s u := bridges_after h rfl
  cases t <;> simp only [tableInstalled, ownerInstalls]
  case settings => exact put (bridges_settingsInstalled _)
  case address => exact put (bridges_addressInstalled _ _)
  case speed => exact put (bridges_retarget _)
  case map => exact put (bridges_mapInstalled _ _)
  case cues | lamps => exact put (bridges_quiet (by simp [bridgeView]))

theorem bridges_handCommit : BridgeReaches s (handCommit s f via) := by
  have replied (u : State) (a : Answer) : BridgeReaches u (answered s u 8 a) := bridges_quiet rfl
  refine Relation.ReflTransGen.trans ?_ (replied _ _)
  rcases cfgCommit_cases s with eq | ⟨t, -, -, eq⟩ <;> rw [eq]
  have begun (u : State) : BridgeReaches u (writeBegun u t) := bridges_quiet rfl
  exact (bridges_tableInstalled s t _).trans (begun _)

theorem bridges_handStatus : BridgeReaches s (handStatus s f via) := by
  simp only [handStatus]
  split <;> exact bridges_quiet rfl

theorem bridges_handErase : BridgeReaches s (handErase s f via) := by
  simp only [handErase]
  split <;> exact bridges_quiet rfl

theorem bridges_handProgram : BridgeReaches s (handProgram s f via) := by
  simp only [handProgram]
  split <;> exact bridges_quiet rfl

theorem bridges_restoreDone : BridgeReaches s (restoreDone s) := by
  simp only [restoreDone]
  split
  · exact bridges_quiet (by simp [bridgeView])
  · exact .refl
  · exact .refl

theorem bridges_nvCompleted : BridgeReaches s (nvCompleted s) := by
  simp only [nvCompleted]
  split
  · exact .refl
  · exact bridges_quiet rfl

end

/-! ### The resets (R116, R132, R191) -/

/-- The bridge and the sequencer as a reset or its release leaves them. -/
structure BridgeReset (t : State) : Prop where
  mbr : t.mbr = mbrReset
  msq : ∃ timer, t.msq = { msqReset with scanTimer := timer }
  outstanding : t.trc.outstanding = false

section
variable {sense : Prop} {s t : State}

theorem bridgeReset_resetTaken (s : State) (written : Nat) (phase : Phase) : BridgeReset (resetTaken s written phase) :=
  ⟨rfl, ⟨none, rfl⟩, rfl⟩

theorem bridgeReset_released (s : State) (kind : ResetKind) : BridgeReset (released s kind) := by
  have eq := released_eq s kind
  dsimp only at eq
  exact ⟨congrArg State.mbr eq, ⟨_, congrArg State.msq eq⟩, congrArg (fun t => t.trc.outstanding) eq⟩

theorem BridgeReset.law (h : BridgeReset t) : BridgeLaw sense t ∧ Rested t.msq := by
  obtain ⟨mbr, ⟨timer, msq⟩, outstanding⟩ := h
  have sequencer : SequencerLaw t.msq := by
    rw [msq]
    have codes : ∀ n ∈ msqReset.results, n ≤ 4095 := by decide
    exact ⟨nofun, List.nodup_nil, codes, rfl, nofun, nofun, nofun, nofun, nofun⟩
  refine ⟨(bridgeLaw_iff t).mpr ⟨?_, ?_, sequencer, fun _ => ?_⟩, fun _ => ?_⟩
  · rw [BridgeSafe, mbr]
    decide
  · rw [GapSafe, mbr, msq, outstanding]
    simp [mbrReset, msqReset]
  · rw [SenseSafe, mbr]
    exact ⟨nofun, nofun, fun mark => absurd rfl mark, nofun⟩
  · rw [msq]
    exact ⟨nofun, nofun, rfl, rfl⟩

/-- A reset command resets the part, or is refused with a reply. -/
theorem handReset_cases (phase : Phase) (u : State) (f : Frame) (via : Via) :
    BridgeReaches u (handReset phase u f via) ∨ BridgeReset (handReset phase u f via) := by
  simp only [handReset]
  split
  · exact .inr (bridgeReset_resetTaken u 0 phase)
  · exact .inl (bridges_quiet rfl)

/-! ### Every command, and every step -/

variable {i : Instr} {f : State → State}

theorem bridges_live (ht : live f s = .next t) (h : BridgeReaches s (f s)) : BridgeReaches s t := by
  rcases live_cases ht with rfl | ⟨-, rfl⟩
  · exact .refl
  · exact h

theorem bridges_settled (ht : settled f s = .next t) (h : BridgeReaches s (f s)) : BridgeReaches s t := by
  rcases settled_cases ht with rfl | ⟨-, rfl⟩
  · exact .refl
  · exact h.trans (bridges_fnuSettle _)

/-- What a command does to the bridge and the sequencer: the operations, a completed conversion before them, or a reset. -/
inductive BridgeCommand (s t : State) : Prop
  | reaches (h : BridgeReaches s t)
  | converted (code : BitVec 12) (h : BridgeReaches (conversionDone s code) t)
  | reset (h : BridgeReset t)

theorem bridgeCommand_handReset {row : Frame → Bool} {phase : Phase} (ht : live (dispatch row (handReset phase)) s = .next t) :
    BridgeCommand s t := by
  have taken (f : Frame) (rest : List Frame) : BridgeReaches s (frameTaken s f rest) := bridges_quiet (by simp [bridgeView])
  rcases live_cases ht with rfl | ⟨-, rfl⟩
  · exact .reaches .refl
  rcases dispatch_cases row (handReset phase) s with eq | ⟨f, rest, eq | ⟨via, eq⟩⟩ <;> rw [eq]
  · exact .reaches .refl
  · exact .reaches (taken f rest)
  · rcases handReset_cases phase (frameTaken s f rest) f via with refused | reset
    · exact .reaches ((taken f rest).trans refused)
    · exact .reset reset

/-- Every command but a completed conversion and the resets does what the operations do. -/
theorem exec_bridges (ht : exec i s = .next t) (conversion : ∀ code, i ≠ .conversionComplete code)
    (command : i ≠ .resetNormal ∧ i ≠ .resetFactory ∧ i ≠ .resetRelease)
    (power : ∀ written, i ≠ .powerOnReset written ∧ i ≠ .brownoutReset written) : BridgeReaches s t := by
  have request (u : State) (b : Tbs) (kind : Nat) (a : Answer) : BridgeReaches u (answered u (u.setTbs b) kind a) :=
    bridges_quiet rfl
  obtain ⟨normal, factory, release⟩ := command
  cases i
  case conversionComplete code => exact absurd rfl (conversion code)
  case powerOnReset written => exact absurd rfl (power written).1
  case brownoutReset written => exact absurd rfl (power written).2
  case resetNormal => exact absurd rfl normal
  case resetFactory => exact absurd rfl factory
  case resetRelease => exact absurd rfl release
  case drive => exact bridges_settled ht (bridges_dispatch s _ bridges_handDrive)
  case haltNormal => exact bridges_settled ht (bridges_dispatch s _ bridges_handHaltNormal)
  case haltEmergency => exact bridges_settled ht (bridges_dispatch s _ bridges_handHaltEmergency)
  case func => exact bridges_settled ht (bridges_dispatch s _ bridges_handFunc)
  case cfgCommit => exact bridges_settled ht (bridges_dispatch s _ bridges_handCommit)
  case replyFrameTaken => exact bridges_live ht (bridges_dispatch s _ fun _ _ _ => .refl)
  case cfgOpen | cfgPoint | cfgWrite | cfgClose => exact bridges_live ht (bridges_dispatch s _ fun u _ _ => request u _ _ _)
  case cfgRead => exact bridges_live ht (bridges_dispatch s _ fun u _ _ => request u u.tbs _ _)
  case statusReq => exact bridges_live ht (bridges_dispatch s _ bridges_handStatus)
  case sampleErase => exact bridges_live ht (bridges_dispatch s _ bridges_handErase)
  case sampleWrite => exact bridges_live ht (bridges_dispatch s _ bridges_handProgram)
  case factoryRestoreComplete =>
    cases ht
    exact bridges_restoreDone s
  case commandLossTimerExpiry => exact bridges_settled ht (bridges_lossExpiry s)
  case rampTick => exact bridges_settled ht (bridges_rampTick s)
  case stallTimerExpiry => exact bridges_settled ht (bridges_stallExpiry s)
  case overcurrentTrip => exact bridges_settled ht (bridges_overcurrent s _)
  case retryTimerExpiry => exact bridges_settled ht (bridges_retryExpiry s)
  case qualificationTimerExpiry => exact bridges_settled ht (bridges_qualificationExpiry s _)
  case coastTimerExpiry => exact bridges_settled ht (bridges_coastExpiry s)
  case bufferRequestTimerExpiry =>
    obtain ⟨request, -, -⟩ := bridges_powerTimers s
    exact bridges_settled ht request
  case overTimerExpiry =>
    obtain ⟨-, overvoltage, -⟩ := bridges_powerTimers s
    exact bridges_settled ht overvoltage
  case underTimerExpiry =>
    obtain ⟨-, -, undervoltage⟩ := bridges_powerTimers s
    exact bridges_settled ht undervoltage
  case presenceGained v | presenceLost v =>
    refine Relation.ReflTransGen.trans ?_ (bridges_settled ht (bridges_presenceEvent _ _ _))
    split <;> first
      | exact bridges_setSupply s _ _
      | exact .refl
  case bemfTimerExpiry => exact bridges_live ht (bridges_bemfExpiry s)
  case pwmPeriodEnd => exact bridges_live ht (.single .periodEnd)
  case settleTimerExpiry => exact bridges_live ht (.single .settled)
  case tripFreeTimerExpiry => exact bridges_live ht (bridges_tripFreeExpiry s)
  case scanTimerExpiry => exact bridges_live ht (bridges_scanExpires s)
  case smokeRequestTimerExpiry => exact bridges_live ht (bridges_smokeRequestExpiry s)
  case nvWriteComplete => exact bridges_live ht (bridges_nvCompleted s)
  case silenceWatchElapsed | virtualChuff =>
    refine bridges_live ht (bridges_quiet ?_)
    split <;> simp [bridgeView]
  case characterReceived | brokenCharacter | interByteTimerExpiry | replyFrameSent | relayFrameSent | eraseComplete
      | programComplete | camTick | camEdge | outputSample | ageTimerExpiry | puffTimerExpiry | flickerAdvance
      | blinkTimerExpiry | softTimerExpiry =>
    exact bridges_live ht (bridges_quiet (by simp [bridgeView]))

theorem exec_bridgeCommand (ht : exec i s = .next t) : BridgeCommand s t := by
  cases i
  case conversionComplete code =>
    rcases settled_cases ht with rfl | ⟨-, rfl⟩
    · exact .reaches .refl
    · exact .converted code (bridges_fnuSettle _)
  case resetNormal | resetFactory => exact bridgeCommand_handReset ht
  case powerOnReset | brownoutReset =>
    cases ht
    exact .reset (bridgeReset_resetTaken s _ _)
  case resetRelease =>
    cases ht
    simp only [resetReleased]
    split
    · exact .reset (bridgeReset_released s _)
    · exact .reaches .refl
    · exact .reaches .refl
  all_goals exact .reaches (exec_bridges ht nofun ⟨nofun, nofun, nofun⟩ fun _ => ⟨nofun, nofun⟩)

/-- A command keeps the laws, and leaves nothing to an idle converter. -/
theorem BridgeLaw.command (h : BridgeLaw sense s) (rested : Rested s.msq) (command : BridgeCommand s t) :
    BridgeLaw sense t ∧ Rested t.msq := by
  cases command with
  | reaches reaches => exact ⟨h.reaches reaches, rested_reaches rested reaches⟩
  | converted code reaches =>
    obtain ⟨law, rested⟩ := h.conversionDone rested code
    exact ⟨law.reaches reaches, rested_reaches rested reaches⟩
  | reset reset => exact reset.law

/-- So does a step; on an empty queue FNU takes what waits. -/
theorem BridgeLaw.step (h : BridgeLaw sense s) (rested : Rested s.msq) (ht : step s = .next t) :
    BridgeLaw sense t ∧ Rested t.msq := by
  cases pending : s.pending with
  | nil =>
    simp only [Machine.step, pending] at ht
    cases ht
    exact h.command rested (.reaches (bridges_fnuSettle s))
  | cons i rest =>
    simp only [Machine.step, pending] at ht
    have taken : BridgeLaw sense (s.setPending rest) := h.congr rfl
    exact taken.command rested (exec_bridgeCommand ht)

end

/-- Settles O41: the laws, the sense among them where it was sound, stand through every operation and every completed conversion. -/
theorem bridgeAndSequencerStaySound : Obligations.BridgeAndSequencerStaySound := by
  intro s t _ bridge gap sequencer _ ht
  obtain ⟨law, rested⟩ := (sequencerSafe_iff s).mp sequencer
  have start : BridgeLaw (SenseSafe s) s := (bridgeLaw_iff s).mpr ⟨bridge, gap, law, id⟩
  obtain ⟨kept, rested'⟩ := start.step rested ht
  obtain ⟨bridge', gap', law', sense'⟩ := (bridgeLaw_iff t).mp kept
  exact ⟨bridge', gap', (sequencerSafe_iff t).mpr ⟨law', rested'⟩, kept.bemfSafe, sense'⟩

end Sys2Proof.Laws
end

section
/-!
PROOFS. A completed conversion writes its channel's entry alone, and the arbiter starts the highest source (R110, R117 to R119, R126).
-/
namespace Sys2Proof.Laws

open Sys2Proof.Machine

section
variable {s : State} {c : Conversion} (code : BitVec 12)

/-- The reports and the deliveries of a completion leave the table as the conversion has written it. -/
theorem results_conversionDone (runs : s.msq.converting = some c) (stands : c.void = false) :
    (conversionDone s code).msq.results = resultWrite s.msq.results c.channel (readCode s c code) := by
  have reported : (conversionReported s c code).msq.results = resultWrite s.msq.results c.channel (readCode s c code) := by
    simp only [conversionReported, gapReported, gapEnd]
    (repeat' split) <;> exact results_conversionTaken s.msq c _
  have answered : (if c.requester = .trc then bemfAnswered (conversionReported s c code)
      else conversionReported s c code).msq = (conversionReported s c code).msq := by
    split <;> rfl
  rw [conversionDone_read code runs stands, arbiterActs, setMsq_msq, arbitrate_results,
    results_reaches (bridges_codeDelivered _ c _), answered, reported]

/-- A scan's code of MOTOR_I goes to nobody; the sense alone is left changed (R110, R120). -/
theorem conversionDone_motorScan (runs : s.msq.converting = some ⟨.motorI, .scan, .scan, false⟩) :
    (conversionDone s code).mbr = motorRead s.mbr code ∧ (conversionDone s code).fnu = s.fnu := by
  rw [conversionDone_read code runs rfl]
  exact ⟨rfl, rfl⟩

end

/-- What a conversion that stands does, up to what FNU takes. -/
theorem conversionComplete_stands {s : State} {c : Conversion} (code : BitVec 12) (runs : s.msq.converting = some c)
    (stands : c.void = false) (size : s.msq.results.length = 8) :
    let t := fnuSettle (conversionDone s code)
    (∀ k, resultOf t.msq k = if k = c.channel then readCode s c code else resultOf s.msq k) ∧
      (c.channel = .motorI → c.source = .scan → c.requester = .scan → s.fnu.waiting = [] → t.mbr = motorRead s.mbr code) := by
  refine ⟨resultOf_written size ?_, fun channel source requester quiet => ?_⟩
  · exact (results_reaches (bridges_fnuSettle _)).trans (results_conversionDone code runs stands)
  · have scanned : c = ⟨.motorI, .scan, .scan, false⟩ := by
      rw [← channel, ← source, ← requester, ← stands]
    obtain ⟨mbr, fnu⟩ := conversionDone_motorScan code (scanned ▸ runs)
    rw [fnuSettle_of_nil (fnu ▸ quiet), mbr]

/-- Settles O42: the table from what the operations keep of it, the arbiter source by source. -/
theorem conversionWritesItsEntryAndTheArbiterActs : Obligations.ConversionWritesItsEntryAndTheArbiterActs := by
  refine ⟨fun s code run => ?_, fun q idle => ⟨fun r => arbitrate_inject idle, fun free =>
    ⟨arbitrate_gap idle free, fun other => ⟨fun r rest => arbitrate_queue idle free other, fun empty =>
      ⟨fun c rest => arbitrate_scan idle free other empty, arbitrate_nothing idle free other empty⟩⟩⟩⟩⟩
  have done : exec (.conversionComplete code) s = .next (fnuSettle (conversionDone s code)) := settled_running run
  refine ⟨fun idle => ?_, fun c runs => ⟨fun void => ?_, fun stands size => ⟨_, done, ?_⟩⟩⟩
  · rw [done, conversionDone_idle code idle]
  · rw [done, conversionDone_void code runs void]
    rfl
  · obtain ⟨table, sense⟩ := conversionComplete_stands code runs stands size
    refine ⟨table, fun channel source requester quiet => (sense channel source requester quiet).trans ?_⟩
    simp only [motorRead, Bool.and_eq_true, decide_eq_true_eq, if_pos channel]
    rfl

end Sys2Proof.Laws
end

section
/-!
PROOFS. The scan timer expires: the pass that it forms, and what it leaves alone (R129, R130).
-/
namespace Sys2Proof.Laws

open Sys2Proof.Machine

/-- The arbiter strikes no channel from the pass (R130: the completion does). -/
theorem arbitrate_pass (q : Msq) : (arbitrate q).pass = q.pass :=
  arbitrate_induction (P := fun t => t.pass = q.pass) (fun _ => rfl) (fun _ _ _ => rfl) (fun _ _ => rfl)
    (fun _ _ _ _ _ => rfl) fun _ _ _ _ _ => rfl

theorem mem_scanChannels (scanSet : Nat) (c : Channel) :
    c ∈ scanChannels scanSet ↔ c ≠ .bemf ∧ scanSet.testBit (channelNumber c) = true := by
  have listed : c ∈ channels := by cases c <;> decide
  simp only [scanChannels, List.mem_filter, listed, true_and, Bool.and_eq_true, decide_eq_true_eq,
    Nat.testBit_eq_decide_div_mod_eq]

/-- The list formed keeps the order of the channels' table. -/
theorem scanChannels_ascending (scanSet : Nat) :
    (scanChannels scanSet).Pairwise fun a b => channelNumber a < channelNumber b :=
  have table : channels.Pairwise fun a b => channelNumber a < channelNumber b := by decide
  table.filter _

theorem scanExpiry_active {q : Msq} (active : q.pass ≠ []) (scanSet period : Nat) :
    scanExpiry q scanSet period = { q with scanTimer := some (period * 1000) } :=
  if_neg (mt List.isEmpty_iff.mp active)

theorem scanExpiry_idle {q : Msq} (idle : q.pass = []) (scanSet period : Nat) :
    scanExpiry q scanSet period =
      arbitrate { q with scanTimer := some (period * 1000), pass := scanChannels scanSet } :=
  if_pos (List.isEmpty_iff.mpr idle)

/-- Settles O43: an active pass keeps its channels, an idle one is formed of the table's channels in SCAN_SET. -/
theorem scanTimerExpires : Obligations.ScanTimerExpires := by
  intro s run timer restarted
  have expires : scanExpires s = s.setMsq (scanExpiry s.msq s.scanSet s.scanPeriod) :=
    if_pos (Option.isSome_iff_ne_none.mpr timer)
  have done : exec .scanTimerExpiry s = .next (scanExpires s) := live_running run
  rw [expires] at done
  refine ⟨fun active => ?_, fun idle => ⟨_, done, fun p hp => ?_, ?_⟩⟩
  · rw [done, scanExpiry_active active]
  · cases p with
    | msq => simp at hp
    | _ => rfl
  · rw [setMsq_msq, scanExpiry_idle idle, arbitrate_pass]
    exact ⟨mem_scanChannels s.scanSet, scanChannels_ascending s.scanSet, rfl⟩

end Sys2Proof.Laws
end

section
/-!
SUPPORT. What each event does to the smoke controller, and how it ends (R57, R167 to R173).
-/
namespace Sys2Proof.Laws

open Sys2Proof.Machine

/-! ### The end of an event (R57, R167) -/

/-- READY as before: there is nothing to tell. -/
theorem smokeEnd_same {before : SmokeState} {u : State} (same : u.smk.state = .ready ↔ before = .ready) :
    smokeEnd before u = u :=
  if_neg (by simp [same])

/-- READY gained or lost: FNU is told (R57). -/
theorem smokeEnd_told {before : SmokeState} {u : State} (told : ¬(u.smk.state = .ready ↔ before = .ready)) :
    smokeEnd before u = publish u (.smokeReady (u.smk.state = .ready)) :=
  if_pos (mt decide_eq_decide.mp told)

/-- FNU is told exactly of a change of READY. -/
theorem smokeEnd_fnu (before : SmokeState) (u : State) :
    let t := smokeEnd before u
    t.fnu = { u.fnu with waiting := u.fnu.waiting ++
      if (t.smk.state = .ready ↔ before = .ready) then [] else [.smokeReady (t.smk.state = .ready)] } := by
  by_cases same : u.smk.state = .ready ↔ before = .ready
  · simp only [smokeEnd_same same, if_pos same, List.append_nil]
  · simp only [smokeEnd_told same, publish_keeps, if_neg same]
    rfl

theorem sameBut_smokeEnd (s : State) (before : SmokeState) (k : Smk) :
    SameBut [.fnu, .smk] s (smokeEnd before (s.setSmk k)) := by
  intro p hp
  cases p <;> simp_all [partSame]

/-- A unit that ends out of READY (R167, R171, R173): FNU is told if it was READY before. -/
theorem smokeEnd_notReady (s : State) {k : Smk} (off : k.state ≠ .ready) :
    let u := smokeEnd s.smk.state (s.setSmk k)
    SameBut [.fnu, .smk] s u ∧ u.smk = k ∧
      u.fnu = { s.fnu with waiting := s.fnu.waiting ++ if s.smk.state = .ready then [.smokeReady false] else [] } := by
  refine ⟨sameBut_smokeEnd s _ k, by simp, ?_⟩
  by_cases ready : s.smk.state = .ready
  · rw [smokeEnd_told (by simp [off, ready]), if_pos ready, setSmk_smk, decide_eq_false off]
    rfl
  · rw [smokeEnd_same (by simp [off, ready]), if_neg ready, List.append_nil]
    rfl

/-! ### The states -/

theorem smokeRegulates_iff (k : Smk) : smokeRegulates k = true ↔ k.state = .heating ∨ k.state = .ready := by
  simp [smokeRegulates]

/-- Step 4 of R169, in whole numbers. -/
theorem heaterDuty_eq (target gain hmax tm : Nat) :
    (heaterDuty target gain hmax tm : Int) = max 0 (min (hmax : Int) (((target : Int) - tm) * gain / 16)) :=
  clampInt_eq _ _

/-! ### A temperature (R169, R170) -/

section
variable {s : State} {tm : Nat}

theorem smokeTaken_dry (dry : s.smkDry ≤ tm) :
    smokeTaken s tm = { s.smk with
      temperature := some tm, fresh := true, state := .fault, heater := 0, fan := 0
      requestTimer := none, ageTimer := none, puffTimer := none, dry := true } :=
  if_pos dry

theorem smokeTaken_suspended (wet : tm < s.smkDry) (suspended : s.smk.state = .suspended) :
    smokeTaken s tm = { s.smk with temperature := some tm, fresh := true, ageTimer := some 500000 } := by
  simp [smokeTaken, Nat.not_le.mpr wet, smokeRegulates, suspended, smokeAgeTime]

theorem smokeTaken_regulated (wet : tm < s.smkDry) (regulates : s.smk.state = .heating ∨ s.smk.state = .ready) :
    let warm := s.smkTarget ≤ tm + s.smkBand
    smokeTaken s tm = { s.smk with
      temperature := some tm, fresh := true, ageTimer := some 500000
      heater := heaterDuty s.smkTarget s.smkGain s.smk.hmax tm
      state := if warm then .ready else .heating
      fan := if s.smk.state = .ready ∧ ¬warm then s.fanIdle else s.smk.fan
      puffTimer := if s.smk.state = .ready ∧ ¬warm then none else s.smk.puffTimer } := by
  intro warm
  have taken : smokeTaken s tm =
      smokeRegulated s { s.smk with temperature := some tm, fresh := true, ageTimer := some smokeAgeTime } tm :=
    (if_neg (Nat.not_le.mpr wet)).trans (if_pos ((smokeRegulates_iff _).mpr regulates))
  by_cases hot : s.smkTarget ≤ tm + s.smkBand
  · simp [taken, smokeRegulated, smokeReadyAt, warm, hot, smokeAgeTime]
  · rcases regulates with state | state <;>
      simp [taken, smokeRegulated, smokeReadyAt, warm, hot, smokeAgeTime, state]

theorem smokeResult_ignored (ignored : s.smk.state = .off ∨ s.smk.state = .fault) : smokeResult s tm = s := by
  rcases ignored with state | state <;> simp only [smokeResult, state]

theorem smokeResult_heeded (heeded : s.smk.state = .heating ∨ s.smk.state = .ready ∨ s.smk.state = .suspended) :
    smokeResult s tm = smokeEnd s.smk.state (s.setSmk (smokeTaken s tm)) := by
  rcases heeded with state | state | state <;> simp only [smokeResult, state]

end

theorem smokeResult_fnu (s : State) (tm : Nat) :
    let u := smokeResult s tm
    u.fnu = { s.fnu with waiting := s.fnu.waiting ++
      if (u.smk.state = .ready ↔ s.smk.state = .ready) then [] else [.smokeReady (u.smk.state = .ready)] } := by
  have ends : smokeResult s tm = s ∨ smokeResult s tm = smokeEnd s.smk.state (s.setSmk (smokeTaken s tm)) := by
    simp only [smokeResult]
    split <;> simp
  rcases ends with ignored | heeded
  · simp [ignored]
  · rw [heeded]
    exact smokeEnd_fnu s.smk.state (s.setSmk (smokeTaken s tm))

/-! ### The delivery of a temperature (R119, R127) -/

/-- The queued conversion completes: SMK takes its code, once MSQ has written it. -/
theorem conversionDone_smoke {s : State} {code : BitVec 12}
    (converts : s.msq.converting = some ⟨.smokeT, .queue, .smk, false⟩) :
    ∃ q, conversionDone s code = arbiterActs (smokeResult (s.setMsq q) code.toNat) := by
  have other : Channel.smokeT ≠ .motorI := nofun
  refine ⟨conversionTaken s.msq ⟨.smokeT, .queue, .smk, false⟩ code.toNat, ?_⟩
  simp only [conversionDone, converts, codeRead_other _ _ _ other, senseRead_other _ _ _ other]
  rfl

theorem sameBut_smokeResult (s : State) (q : Msq) (tm : Nat) :
    SameBut [.fnu, .msq, .smk] s (arbiterActs (smokeResult (s.setMsq q) tm)) := by
  intro p hp
  cases p <;> simp_all [partSame]

/-- What of the completion SMK and FNU see. -/
theorem conversionDone_smoke_spec {s : State} {code : BitVec 12}
    (converts : s.msq.converting = some ⟨.smokeT, .queue, .smk, false⟩) :
    let u := conversionDone s code
    SameBut [.fnu, .msq, .smk] s u ∧
      u.fnu = { s.fnu with waiting := s.fnu.waiting ++
        if (u.smk.state = .ready ↔ s.smk.state = .ready) then [] else [.smokeReady (u.smk.state = .ready)] } ∧
      (s.smk.state = .off ∨ s.smk.state = .fault → u.smk = s.smk) ∧
      (s.smk.state = .heating ∨ s.smk.state = .ready ∨ s.smk.state = .suspended → u.smk = smokeTaken s code.toNat) := by
  obtain ⟨q, done⟩ := conversionDone_smoke (code := code) converts
  rw [done]
  refine ⟨sameBut_smokeResult s q code.toNat, smokeResult_fnu (s.setMsq q) code.toNat, fun ignored => ?_,
    fun heeded => ?_⟩
  · rw [smokeResult_ignored (s := s.setMsq q) ignored]
    rfl
  · simp only [arbiterActs, smokeResult_heeded (s := s.setMsq q) heeded, setMsq_smk, smokeEnd_keeps, setSmk_smk]
    rfl

/-! ### Smoke enable (R167) -/

section
variable {s : State}

theorem smokeEnable_on_started (off : s.smk.state = .off) :
    smokeEnable s true =
      (s.setSmk { s.smk with
        enable := true, temperature := none, fresh := false, heater := 0, fan := s.fanIdle
        requestTimer := some 100000, state := if s.smk.hmax = 0 then .suspended else .heating
        puffTimer := if s.smk.hmax = 0 then none else s.smk.puffTimer }).setMsq
          (queueRequest s.msq ⟨.smokeT, .smk⟩) := by
  have started : smokeEnable s true = smokeEnableOn s := rfl
  rw [started, smokeEnableOn, if_pos off]
  by_cases capped : s.smk.hmax = 0
  · rw [smokeEnd_same (by simp [capped, smokeSuspended, off])]
    simp [capped, smokeSuspended, smokeRequest, smokeRequestTime]
  · rw [smokeEnd_same (by simp [capped, off])]
    simp [capped, smokeRequest, smokeRequestTime]

theorem smokeEnable_on_kept (on : s.smk.state ≠ .off) : smokeEnable s true = s.setSmk { s.smk with enable := true } :=
  if_neg on

theorem smokeEnable_off_kept (off : s.smk.state = .off) : smokeEnable s false = s.setSmk { s.smk with enable := false } :=
  if_pos off

theorem smokeEnable_off_ended (on : s.smk.state ≠ .off) :
    smokeEnable s false = smokeEnd s.smk.state (s.setSmk { s.smk with
      enable := false, state := .off, heater := 0, fan := 0
      requestTimer := none, ageTimer := none, puffTimer := none }) :=
  if_neg on

/-! ### The cap (R171) -/

theorem smokeCap_zero (works : s.smk.state = .heating ∨ s.smk.state = .ready) :
    smokeCap s 0 = smokeEnd s.smk.state (s.setSmk { s.smk with
      hmax := 0, state := .suspended, heater := 0, fan := s.fanIdle, puffTimer := none }) :=
  congrArg (fun k => smokeEnd s.smk.state (s.setSmk k)) (if_pos ((smokeRegulates_iff _).mpr works))

theorem smokeCap_limits {hmax : Nat} (works : s.smk.state = .heating ∨ s.smk.state = .ready) (positive : 0 < hmax) :
    smokeCap s hmax = s.setSmk { s.smk with hmax := hmax, heater := min s.smk.heater hmax } := by
  have regulates := (smokeRegulates_iff { s.smk with hmax := hmax }).mpr works
  simp only [smokeCap, regulates, if_true, if_neg positive.ne']
  exact smokeEnd_same Iff.rfl

theorem smokeCap_resumes {hmax : Nat} (suspended : s.smk.state = .suspended) (positive : 0 < hmax) :
    smokeCap s hmax = s.setSmk (smokeResumed s { s.smk with hmax := hmax }) := by
  have capped : smokeCap s hmax = smokeEnd s.smk.state (s.setSmk (smokeResumed s { s.smk with hmax := hmax })) := by
    simp [smokeCap, smokeRegulates, suspended, positive]
  exact capped.trans (smokeEnd_same (by simp [suspended, smokeResumed]))

theorem smokeCap_kept {hmax : Nat}
    (kept : s.smk.state = .off ∨ s.smk.state = .fault ∨ s.smk.state = .suspended ∧ hmax = 0) :
    smokeCap s hmax = s.setSmk { s.smk with hmax := hmax } := by
  have capped : smokeCap s hmax = smokeEnd s.smk.state (s.setSmk { s.smk with hmax := hmax }) := by
    rcases kept with state | state | ⟨state, rfl⟩ <;> simp [smokeCap, smokeRegulates, state]
  exact capped.trans (smokeEnd_same Iff.rfl)

/-- The heater of a unit that resumes: by a fresh temperature, or 0. -/
theorem smokeResumed_heater (s : State) (k : Smk) :
    (k.fresh = false ∨ k.temperature = none → (smokeResumed s k).heater = 0) ∧
      ∀ tm, k.fresh = true → k.temperature = some tm →
        (smokeResumed s k).heater = heaterDuty s.smkTarget s.smkGain k.hmax tm := by
  refine ⟨fun stale => ?_, fun tm fresh temperature => by simp only [smokeResumed, fresh, temperature]⟩
  rcases stale with stale | none
  · simp only [smokeResumed, stale]
  · cases fresh : k.fresh <;> simp only [smokeResumed, none, fresh]

/-! ### The power states (R173) -/

theorem smokePower_normal (works : s.smk.state = .heating ∨ s.smk.state = .ready) :
    smokePower s .normal = s.setSmk { s.smk with power := .normal, fan := s.fanIdle, puffTimer := none } := by
  have regulates := (smokeRegulates_iff { s.smk with power := .normal }).mpr works
  simp only [smokePower, regulates, if_true]
  exact smokeEnd_same Iff.rfl

theorem smokePower_suspends {p : PowerState} (works : s.smk.state = .heating ∨ s.smk.state = .ready)
    (other : p ≠ .normal) :
    smokePower s p = smokeEnd s.smk.state (s.setSmk { s.smk with
      power := p, state := .suspended, heater := 0, fan := s.fanIdle, puffTimer := none }) := by
  have regulates := (smokeRegulates_iff { s.smk with power := p }).mpr works
  simp only [smokePower, regulates, if_true, if_neg other]
  rfl

theorem smokePower_idle {p : PowerState} (idle : ¬(s.smk.state = .heating ∨ s.smk.state = .ready)) :
    smokePower s p = s.setSmk { s.smk with power := p, fan := if s.smk.state = .suspended then s.fanIdle else 0 } := by
  have rests : ¬smokeRegulates { s.smk with power := p } = true := mt (smokeRegulates_iff _).mp idle
  simp only [smokePower, if_neg rests]
  exact smokeEnd_same Iff.rfl

end

theorem fanLine_eq (k : Smk) : fanLine k = if k.power = .init ∨ k.power = .hold then 0 else k.fan := by
  cases power : k.power <;> simp [fanLine, power]

end Sys2Proof.Laws
end

section
/-!
PROOFS. SMK's timers, a temperature, smoke enable, Hmax and the power states (R167 to R173).
-/
namespace Sys2Proof.Laws

open Sys2Proof.Machine

/-- The three timers, running and stopped (R168, R172). -/
theorem smokeTimersExpire {s : State} (run : running s = true) :
    exec .smokeRequestTimerExpiry s =
      .next (if s.smk.requestTimer = none then s
             else (s.setSmk { s.smk with requestTimer := some 100000 }).setMsq
               (queueRequest s.msq ⟨.smokeT, .smk⟩)) ∧
    exec .ageTimerExpiry s =
      .next (if s.smk.ageTimer = none then s
             else s.setSmk { s.smk with ageTimer := none, fresh := false, heater := 0 }) ∧
    exec .puffTimerExpiry s =
      .next (if s.smk.puffTimer = none then s else s.setSmk { s.smk with puffTimer := none, fan := s.fanIdle }) := by
  refine ⟨(live_running run).trans ?_, (live_running run).trans ?_, (live_running run).trans ?_⟩
  · cases timer : s.smk.requestTimer <;> simp [smokeRequestExpiry, timer, smokeRequest, smokeRequestTime]
  · cases timer : s.smk.ageTimer <;> simp [smokeAgeExpiry, timer]
  · cases timer : s.smk.puffTimer <;> simp [puffExpiry, timer]

/-- Settles O52: the timers, a temperature as it reaches SMK, and the cases of smoke enable, Hmax and the power states. -/
theorem smokeTimersAndResults : Obligations.SmokeTimersAndResults := by
  refine ⟨fun s run => smokeTimersExpire run, ?_, ?_⟩
  · intro s code run converts tm k warm
    obtain ⟨same, fnu, ignored, heeded⟩ := conversionDone_smoke_spec (code := code) converts
    refine ⟨conversionDone s code, settled_running run, same, fnu, ignored, fun takes => ?_⟩
    rw [heeded takes]
    refine ⟨smokeTaken_dry, smokeTaken_suspended, fun wet other => ?_⟩
    rw [smokeTaken_regulated wet ((or_assoc.mpr takes).resolve_right other)]
    exact ⟨rfl, heaterDuty_eq _ _ _ _⟩
  · intro s k works becomes
    refine ⟨smokeEnable_on_kept, smokeEnable_on_started, smokeEnable_off_kept, fun on => ?_, fun w => ?_,
      fun hmax => smokeCap_limits, fun hmax suspended positive => ?_, fun hmax => smokeCap_kept, smokePower_normal,
      fun p w other => ?_, fun p => smokePower_idle, fanLine_eq k⟩
    · rw [smokeEnable_off_ended on]
      exact smokeEnd_notReady s nofun
    · rw [smokeCap_zero w]
      exact smokeEnd_notReady s nofun
    · obtain ⟨stale, fresh⟩ := smokeResumed_heater s { k with hmax := hmax }
      refine ⟨_, smokeCap_resumes suspended positive, stale, fun tm is temperature => ?_⟩
      exact (congrArg Nat.cast (fresh tm is temperature)).trans (heaterDuty_eq _ _ _ _)
    · rw [smokePower_suspends w other]
      exact smokeEnd_notReady s nofun

end Sys2Proof.Laws
end

section
/-!
PROOFS. The cam tick, an edge on CAM_IN, and a chuff event at CAM, SND and SMK (R133 to R141, R153, R172).
-/
namespace Sys2Proof.Laws

open Sys2Proof.Machine

/-! ### A chuff event at CAM, SND and SMK (R141, R153, R172) -/

section
variable (s : State)

theorem soundChuff_snd (index : Nat) :
    let r := s.cueRecord (s.chuffCue + index)
    (soundChuff s index).snd =
      if s.snd.on = true ∧ r.length ≠ 0 then
        { s.snd with chuff := { cue := some (s.chuffCue + index), position := 0, held := false, order := 0,
                                volume := min 255 (r.volume + s.trc.load * s.loadGain / 256) } }
      else s.snd := by
  simp only [soundChuff, State.cueEmpty, Bool.and_eq_true, Bool.not_eq_true', decide_eq_false_iff_not]
  split <;> rfl

theorem smokeChuff_smk :
    (smokeChuff s).smk =
      if s.smk.state = .ready ∧ (s.smk.power = .normal ∨ s.smk.power = .coast) then
        { s.smk with fan := min 255 (s.fanPuff + s.trc.load / 4), puffTimer := some (10000 * s.puffTime) }
      else s.smk := by
  simp only [smokeChuff, smokePuffs, Bool.and_eq_true, Bool.or_eq_true, decide_eq_true_eq, Nat.mul_comm 10000]
  split <;> rfl

theorem chuffEmitted_cam :
    (chuffEmitted s).cam = { s.cam with index := chuffIndexNext (chuffIndex s.cam.index s.cpr) s.cpr } := by
  simp [chuffEmitted]

/-- Settles O46. -/
theorem chuffReachesSoundAndSmoke : Obligations.ChuffReachesSoundAndSmoke := by
  unfold Obligations.ChuffReachesSoundAndSmoke
  refine fun s => ⟨fun p other => ?_, chuffEmitted_cam s, ?_, ?_⟩
  · cases p <;> simp_all [partSame]
  · simp only [chuffEmitted, smokeChuff_keeps]
    exact soundChuff_snd _ _
  · rw [chuffEmitted, smokeChuff_smk]
    simp [State.fanPuff, State.puffTime, setting1]

end

/-! ### The silence watch (R135, R137) -/

section
variable (s : State) (now : Nat)

theorem watchElapsed_iff : watchElapsed s now = true ↔ s.cam.qualification = .qualified ∧ 0 < s.trc.ramp / 64 ∧
    10 * max (3 * (200 * 1048576 / (s.trc.ramp / 64 * s.camScale))) 25000 ≤ now - s.cam.silenceRef := by
  simp only [watchElapsed, Bool.and_eq_true, decide_eq_true_eq, and_assoc]
  rfl

theorem silenceTested_eq : silenceTested s now = s.setCam { s.cam with
    qualification := if watchElapsed s now = true then .unqualified else s.cam.qualification
    inconsistentRun := if watchElapsed s now = true then 0 else s.cam.inconsistentRun } := by
  simp only [silenceTested]
  split <;> rfl

/-! ### The cam source (R138) -/

theorem sourceNow_eq :
    sourceNow s = if s.sensorPreferred = true ∧ s.cam.qualification = .qualified then .sensor else .virtual := by
  simp only [sourceNow, Bool.and_eq_true, decide_eq_true_eq]

theorem sourceDecided_eq : sourceDecided s = s.setCam { s.cam with
    source := sourceNow s
    accumulator := if sourceNow s = s.cam.source then s.cam.accumulator else if sourceNow s = .sensor then 0 else 524288 } := by
  simp only [sourceDecided]
  split
  next same => rw [same]; rfl
  next => cases sourceNow s <;> rfl

/-! ### The phase (R139) -/

theorem tickWraps_iff : tickWraps s = true ↔ 1048576 ≤ s.cam.accumulator + s.trc.ramp / 64 * s.camScale :=
  decide_eq_true_iff

theorem phaseAdvanced_eq : phaseAdvanced s =
    let phase := s.cam.accumulator + s.trc.ramp / 64 * s.camScale
    s.setCam { s.cam with accumulator := if 1048576 ≤ phase then phase - 1048576 else phase } := by
  have less (p : Nat) : lessOneTurn p = p - 1048576 := by
    simp only [lessOneTurn, camTurn]
    omega
  simp only [phaseAdvanced, tickWraps_iff, less, camRate, vint]

/-! ### The reading of V (R133) -/

variable {s}

theorem tickRead_rest (rest : s.trc.ramp = 0) :
    tickRead s = s.setCam { s.cam with time := s.cam.time + 2000, moving := false } := by
  simp [tickRead, camReads, camRead, tickTimed, camTickTime, rest]

/-- CAM as a tick or an edge leaves it once it has read a V above 0: from rest it departs. -/
def camMoving (c : Cam) (now : Nat) : Cam :=
  if c.moving then c
  else { c with moving := true, index := 0, accumulator := 0, previousEdge := none, inconsistentRun := 0, silenceRef := now }

theorem camReads_moving (moving : 0 < s.trc.ramp) : camReads s now = s.setCam (camMoving s.cam now) := by
  simp [camReads, camRead, camMoving, departed, moving.ne']

theorem camTick_rest (rest : s.trc.ramp = 0) :
    camTick s = s.setCam { s.cam with time := s.cam.time + 2000, moving := false } := by
  rw [camTick, if_pos rest, tickRead_rest rest]

/-- The ticks that SILENCE_WATCH_ELAPSED and VIRTUAL_CHUFF stand for (notes/assumptions/7). -/
theorem exec_tickEvents (run : running s = true) :
    exec .camTick s = .next (camTick s) ∧
      exec .silenceWatchElapsed s = (if tickElapses s = true then exec .camTick s else .next s) ∧
      exec .virtualChuff s = if tickChuffs s = true then exec .camTick s else .next s := by
  have tick : exec .camTick s = .next (camTick s) := live_running run
  have named {f : State → State} (elapses : Bool) (is : f s = if elapses = true then camTick s else s) :
      live f s = if elapses = true then exec .camTick s else .next s := by
    rw [live_running run, is, tick]
    split <;> rfl
  exact ⟨tick, named _ rfl, named _ rfl⟩

end

/-- Settles O44: at rest by the reading of V alone; above it, the watch, the source and the phase each from what the one
before it leaves. -/
theorem camTickMovesThePhase : Obligations.CamTickMovesThePhase := by
  intro s run now
  obtain ⟨tick, watch, chuff⟩ := exec_tickEvents run
  refine ⟨fun rest => ?_, ?_⟩
  · have never : tickElapses s = false ∧ tickChuffs s = false := by simp [tickElapses, tickChuffs, rest]
    obtain ⟨elapses, wraps⟩ := never
    rw [watch, chuff, elapses, wraps, tick, camTick_rest rest]
    exact ⟨rfl, rfl, rfl⟩
  · intro moving c vi elapsed quality source start phase after
    have read : tickRead s = s.setCam c := camReads_moving (s := tickTimed s) now moving
    have elapses : watchElapsed (s.setCam c) now = true ↔ elapsed := watchElapsed_iff (s.setCam c) now
    have tested : silenceTested (tickRead s) now = s.setCam { c with
        qualification := quality, inconsistentRun := if elapsed then 0 else c.inconsistentRun } := by
      rw [read, silenceTested_eq]
      simp only [elapses]
      rfl
    have decided : tickDecided s = s.setCam { c with
        qualification := quality, inconsistentRun := if elapsed then 0 else c.inconsistentRun
        source := source, accumulator := start } := by
      have is : sourceNow (silenceTested (tickRead s) now) = source := by
        rw [tested, sourceNow_eq]
        rfl
      have decides : tickDecided s = sourceDecided (silenceTested (tickRead s) now) := rfl
      rw [decides, sourceDecided_eq, is, tested]
      rfl
    have wraps : tickWraps (tickDecided s) = true ↔ 1048576 ≤ phase := by
      rw [tickWraps_iff, decided]
      rfl
    have stepped : camTick s = if 1048576 ≤ phase ∧ source = .virtual then chuffEmitted after else after := by
      have advanced : phaseAdvanced (tickDecided s) = after := by
        rw [phaseAdvanced_eq, decided]
        rfl
      have virtual : (tickDecided s).cam.source = source := by rw [decided]; rfl
      rw [camTick, if_neg moving.ne', virtualStep, advanced, virtual]
      simp only [Bool.and_eq_true, wraps, decide_eq_true_eq]
    have watched : tickElapses s = true ↔ elapsed := by
      simp only [tickElapses, read, Bool.and_eq_true, decide_eq_true_eq]
      exact ⟨fun h => elapses.mp h.2, fun h => ⟨moving.ne', elapses.mpr h⟩⟩
    have chuffed : tickChuffs s = true ↔ 1048576 ≤ phase := by
      simp only [tickChuffs, Bool.and_eq_true, decide_eq_true_eq, wraps, moving.ne', ne_eq, not_false_eq_true, true_and]
    refine ⟨by rw [tick, stepped], ?_, ?_⟩
    · simp only [watch, watched]
    · simp only [chuff, chuffed]

/-! ### An edge on CAM_IN (R134 to R136) -/

section
variable {s : State} {now : Nat}

theorem camEdge_rest (rest : s.trc.ramp = 0) : camEdge s now = s.setCam { s.cam with moving := false } := by
  simp [camEdge, camReads, camRead, rest]

theorem edgeRejected_iff :
    edgeRejected s now = true ↔ ∃ t, s.cam.previousEdge = some t ∧ now - t < 1000 * s.camDebounce := by
  simp only [edgeRejected, Nat.mul_comm 1000]
  split
  next first => simp [first]
  next t was => simp [was]

/-- The table of R136: the qualification and the inconsistent run after an edge of a kind. -/
def edgeCounts (k : EdgeKind) (q : Qualification) (inconsistent : Nat) : Qualification × Nat :=
  match k, q with
  | .opening, q => (q, inconsistent)
  | .consistent, .unqualified => (.qualifying 1, inconsistent)
  | .consistent, .qualifying n => if n < 3 then (.qualifying (n + 1), inconsistent) else (.qualified, 0)
  | .consistent, .qualified => (.qualified, 0)
  | .inconsistent, .unqualified => (.unqualified, inconsistent)
  | .inconsistent, .qualifying _ => (.unqualified, inconsistent)
  | .inconsistent, .qualified => if inconsistent = 0 then (.qualified, 1) else (.unqualified, 0)

theorem qualify_eq (c : Cam) (k : EdgeKind) : qualify c k =
    let counts := edgeCounts k c.qualification c.inconsistentRun
    { c with qualification := counts.1, inconsistentRun := counts.2 } := by
  obtain ⟨time, moving, edge, q⟩ := c
  cases k <;> cases q <;> simp only [qualify, qualifyConsistent, qualifyInconsistent, edgeCounts] <;> split <;> rfl

theorem edgeCounted_eq (c : Cam) (k : EdgeKind) : edgeCounted c k now =
    let counts := edgeCounts k c.qualification c.inconsistentRun
    { c with previousEdge := some now, qualification := counts.1, inconsistentRun := counts.2
             silenceRef := if counts.1 = .qualified then now else c.silenceRef } := by
  simp only [edgeCounted, qualify_eq]
  split <;> rfl

/-- An accepted edge is counted, the source decided, and a chuff emitted while it is SENSOR. -/
theorem edgeAccepted_eq : edgeAccepted s now =
    let u := sourceDecided (s.setCam (edgeCounted s.cam (edgeKind s now) now))
    if u.cam.source = .sensor then chuffEmitted u else u := rfl

theorem camEdge_moving (moving : 0 < s.trc.ramp) : camEdge s now =
    let u := s.setCam (camMoving s.cam now)
    if edgeRejected u now = true then u else edgeAccepted u now := by
  rw [camEdge, if_neg moving.ne', camReads_moving now moving]

end

/-- Settles O45: an edge above rest is rejected by the time since the one before it, or counted by its kind. -/
theorem camEdgeIsCounted : Obligations.CamEdgeIsCounted := by
  intro s offset run now
  have edge : exec (.camEdge offset) s = .next (camEdge s now) := live_running run
  rw [edge]
  refine ⟨fun rest => by rw [camEdge_rest rest], ?_⟩
  intro moving c vi pv
  have read : camEdge s now = if edgeRejected (s.setCam c) now = true then s.setCam c else edgeAccepted (s.setCam c) now :=
    camEdge_moving moving
  refine ⟨fun t was soon => ?_, ?_⟩
  · have rejected : edgeRejected (s.setCam c) now = true := edgeRejected_iff.mpr ⟨t, was, soon⟩
    rw [read, if_pos rejected]
  · intro late kind counted source after
    have accepted : ¬edgeRejected (s.setCam c) now = true := by
      rw [edgeRejected_iff]
      exact fun ⟨t, was, soon⟩ => absurd soon (late t was).not_gt
    have kindIs : edgeKind (s.setCam c) now = kind := by
      simp only [edgeKind, setCam_cam, setCam_trc, kind]
      cases c.previousEdge with
      | none => rfl
      | some t => simp only [periodConsistent, Bool.and_eq_true, decide_eq_true_eq]; rfl
    have decided : sourceDecided ((s.setCam c).setCam (edgeCounted c kind now)) = after := by
      rw [edgeCounted_eq, sourceDecided_eq, sourceNow_eq]
      rfl
    rw [read, if_neg accepted, edgeAccepted_eq, kindIs, setCam_cam, decided]
    rfl

end Sys2Proof.Laws
end

section
/-!
SUPPORT. The law of the cam through a tick and an edge (R136, R138, R139, R141).
-/
namespace Sys2Proof.Laws

open Sys2Proof.Machine

/-! ### The ranges of CAM, its source apart -/

/-- The phase, the index, the inconsistent run and the count keep to their ranges. -/
structure CamRanges (c : Cam) : Prop where
  phase : c.accumulator < 1048576
  index : c.index ≤ 7
  inconsistent : c.inconsistentRun ≤ 1
  count : ∀ n, c.qualification = .qualifying n → 1 ≤ n ∧ n ≤ 3

/-- The sensor is used only while QUALIFIED (R138). -/
def SensorQualified (c : Cam) : Prop := c.source = .sensor → c.qualification = .qualified

theorem camSafe_iff (s : State) : CamSafe s ↔ CamRanges s.cam ∧ SensorQualified s.cam :=
  ⟨fun ⟨phase, index, sensor, inconsistent, count⟩ => ⟨⟨phase, index, inconsistent, count⟩, sensor⟩,
    fun ⟨⟨phase, index, inconsistent, count⟩, sensor⟩ => ⟨phase, index, sensor, inconsistent, count⟩⟩

theorem CamRanges.moving {c : Cam} (h : CamRanges c) (now : Nat) : CamRanges (camMoving c now) := by
  simp only [camMoving]
  split
  · exact h
  · exact { h with phase := Nat.zero_lt_succ _, index := Nat.zero_le _, inconsistent := Nat.zero_le _ }

theorem SensorQualified.moving {c : Cam} (h : SensorQualified c) (now : Nat) : SensorQualified (camMoving c now) := by
  simp only [camMoving]
  split <;> exact h

theorem edgeCounts_ranges {k : EdgeKind} {q : Qualification} {run : Nat} (inconsistent : run ≤ 1)
    (count : ∀ n, q = .qualifying n → 1 ≤ n ∧ n ≤ 3) :
    (edgeCounts k q run).2 ≤ 1 ∧ ∀ n, (edgeCounts k q run).1 = .qualifying n → 1 ≤ n ∧ n ≤ 3 := by
  fun_cases edgeCounts k q run <;> simp_all

theorem CamRanges.edgeCounted {c : Cam} (h : CamRanges c) (k : EdgeKind) (now : Nat) : CamRanges (edgeCounted c k now) := by
  obtain ⟨inconsistent, count⟩ := edgeCounts_ranges (k := k) h.inconsistent h.count
  rw [edgeCounted_eq]
  exact { h with inconsistent, count }

section
variable {s : State}

theorem CamRanges.silenceTested (h : CamRanges s.cam) (now : Nat) : CamRanges (silenceTested s now).cam := by
  rw [silenceTested_eq]
  refine { h with inconsistent := ?_, count := ?_ } <;> simp only [setCam_cam] <;> split
  · decide
  · exact h.inconsistent
  · exact nofun
  · exact h.count

/-- A source newly decided is the sensor only if it is QUALIFIED, whatever it was before. -/
theorem CamRanges.sourceDecided (h : CamRanges s.cam) : CamSafe (sourceDecided s) := by
  rw [camSafe_iff, sourceDecided_eq]
  refine ⟨{ h with phase := ?_ }, ?_⟩
  · simp only [setCam_cam]
    split
    · exact h.phase
    · split <;> decide
  · simp only [SensorQualified, setCam_cam, sourceNow_eq]
    split
    next now => exact fun _ => now.2
    next => exact nofun

/-- The sum of a phase and a tick's increase is less than two turns, since Vint is at most 1023 and CAM_SCALE 255. -/
theorem phaseAdvanced_safe (h : CamSafe s) (range : s.trc.ramp ≤ 65472) : CamSafe (phaseAdvanced s) := by
  obtain ⟨ranges, sensor⟩ := (camSafe_iff s).mp h
  have scale : s.camScale ≤ 255 := Nat.le_of_lt_succ (BitVec.isLt _)
  have rate : s.trc.ramp / 64 * s.camScale ≤ 1023 * 255 := Nat.mul_le_mul (by omega) scale
  have phase := ranges.phase
  rw [camSafe_iff, phaseAdvanced_eq]
  refine ⟨{ ranges with phase := ?_ }, sensor⟩
  simp only [setCam_cam]
  split <;> omega

theorem chuffEmitted_safe (h : CamSafe s) (cpr : s.cpr ≤ 8) : CamSafe (chuffEmitted s) := by
  obtain ⟨ranges, sensor⟩ := (camSafe_iff s).mp h
  rw [camSafe_iff, chuffEmitted_cam]
  refine ⟨{ ranges with index := ?_ }, sensor⟩
  have index := ranges.index
  simp only [chuffIndexNext, chuffIndex]
  (repeat' split) <;> omega

/-! ### The tick and the edge -/

/-- The SETTINGS in force keep CPR to its range (Table 3-9). -/
theorem ActiveSafe.cpr_le (active : ActiveSafe s) : s.cpr ≤ 8 := by
  obtain ⟨-, valid⟩ := active .settings (by decide)
  obtain ⟨rows, -⟩ := (settingsValid_iff _).mp valid
  exact (rows ⟨27, 1, 1, 8, 4⟩ (by decide)).2

variable (cpr : s.cpr ≤ 8) (range : s.trc.ramp ≤ 65472) (h : CamSafe s)
include h

theorem camReads_safe (now : Nat) : CamSafe (camReads s now) := by
  obtain ⟨ranges, sensor⟩ := (camSafe_iff s).mp h
  rcases Nat.eq_zero_or_pos s.trc.ramp with rest | moving
  · have stopped : (camReads s now).cam = { s.cam with moving := false } := if_pos rest
    rw [camSafe_iff, stopped]
    exact ⟨{ ranges with }, sensor⟩
  · rw [camSafe_iff, camReads_moving now moving]
    exact ⟨ranges.moving now, sensor.moving now⟩

include cpr in
theorem camEdge_safe (now : Nat) : CamSafe (camEdge s now) := by
  obtain ⟨ranges, -⟩ := (camSafe_iff _).mp (camReads_safe h now)
  have decided : CamSafe (sourceDecided _) :=
    CamRanges.sourceDecided (s := (camReads s now).setCam _) (ranges.edgeCounted (edgeKind (camReads s now) now) now)
  simp only [camEdge, edgeAccepted]
  (repeat' split)
  · exact camReads_safe h now
  · exact camReads_safe h now
  · exact chuffEmitted_safe decided (by simpa [State.cpr, setting1] using cpr)
  · exact decided

include cpr range in
theorem camTick_safe : CamSafe (camTick s) := by
  have read : CamSafe (tickRead s) := camReads_safe (s := tickTimed s) h _
  obtain ⟨ranges, -⟩ := (camSafe_iff _).mp read
  have decided : CamSafe (tickDecided s) := (ranges.silenceTested _).sourceDecided
  have advanced : CamSafe (phaseAdvanced (tickDecided s)) := phaseAdvanced_safe decided (by simpa using range)
  simp only [camTick, virtualStep]
  (repeat' split)
  · exact read
  · exact chuffEmitted_safe advanced (by simpa [State.cpr, setting1] using cpr)
  · exact advanced

end

end Sys2Proof.Laws
end

section
/-!
SUPPORT. No operation of traction, of the bridge or of the sequencer changes the cap that TRC holds, but the publication of one (R82).
-/
namespace Sys2Proof.Laws

open Sys2Proof.Machine

section
variable (s : State)

/-! ### The events at TRC -/

@[simp] theorem tractionEnd_dcap (before : Trc) (tick work atOnce : Bool) :
    (tractionEnd before tick work atOnce s).trc.dcap = s.trc.dcap := by
  obtain ⟨trc, -⟩ := tractionEnd_spec before tick work atOnce s
  rw [trc]
  simp only [endedTrc, followDirection_eq, testBemfTimer_eq, testStall_eq]
  (repeat' split) <;> rfl

@[simp] theorem retarget_dcap : (retarget s).trc.dcap = s.trc.dcap := by simp [retarget, workOutTarget]

@[simp] theorem tractionShunt_dcap (on : Bool) : (tractionShunt s on).trc.dcap = s.trc.dcap := by simp [tractionShunt]

@[simp] theorem tractionMomentum_dcap (on : Bool) : (tractionMomentum s on).trc.dcap = s.trc.dcap := rfl

@[simp] theorem rampTick_dcap : (rampTick s).trc.dcap = s.trc.dcap := by
  cases moves : tickMoves s.trc.state
  · rw [rampTick, if_neg (by simp [moves])]
  · simp [rampTick_eq moves]

@[simp] theorem driveArmed_dcap (step : Nat) (d : Dir) : (driveArmed s step d).trc.dcap = s.trc.dcap := by
  simp [driveArmed, workOutTarget]

@[simp] theorem driveCommand_dcap (step : Nat) (d : Dir) : (driveCommand s step d).trc.dcap = s.trc.dcap := by
  simp only [driveCommand, rearm]
  (repeat' split) <;> simp

@[simp] theorem emergencyHalt_dcap : (emergencyHalt s).trc.dcap = s.trc.dcap := by
  simp only [emergencyHalt]
  split <;> simp [haltedIn, disarmed, rampStopped]

@[simp] theorem statedInverted_dcap : (statedInverted s).trc.dcap = s.trc.dcap := by
  simp only [statedInverted]
  split <;> simp

@[simp] theorem lossNotice_dcap : (lossNotice s).trc.dcap = s.trc.dcap := by
  simp only [lossNotice]
  split <;> simp [disarmed]

@[simp] theorem tripNotice_dcap : (tripNotice s).trc.dcap = s.trc.dcap := by
  simp only [tripNotice]
  split <;> simp [tripEntered]

@[simp] theorem retryNotice_dcap : (retryNotice s).trc.dcap = s.trc.dcap := by
  simp only [retryNotice]
  split <;> simp

@[simp] theorem lockoutNotice_dcap : (lockoutNotice s).trc.dcap = s.trc.dcap := by
  simp only [lockoutNotice]
  split <;> simp [haltedIn, disarmed, rampStopped]

@[simp] theorem stallExpiry_dcap : (stallExpiry s).trc.dcap = s.trc.dcap := by
  simp only [stallExpiry]
  split <;> simp [haltedIn, disarmed, rampStopped]

@[simp] theorem tractionPower_dcap (p : PowerState) : (tractionPower s p).trc.dcap = s.trc.dcap := by
  simp only [tractionPower]
  (repeat' split) <;> simp [rampStopped]

@[simp] theorem bemfResult_dcap (raw : Nat) : (bemfResult s raw).trc.dcap = s.trc.dcap := by
  simp only [bemfResult, workOutLoad]
  (repeat' split) <;> simp

/-! ### The events at MBR -/

@[simp] theorem abandonGap_dcap : (abandonGap s).trc.dcap = s.trc.dcap := by
  simp only [abandonGap]
  split <;> rfl

@[simp] theorem gapOffer_dcap : (gapOffer s).trc.dcap = s.trc.dcap := by
  simp only [gapOffer]
  (repeat' split) <;> rfl

@[simp] theorem bemfExpiry_dcap : (bemfExpiry s).trc.dcap = s.trc.dcap := by
  simp only [bemfExpiry]
  (repeat' split) <;> simp

@[simp] theorem judgeOverload_dcap : (judgeOverload s).trc.dcap = s.trc.dcap := by
  simp only [judgeOverload]
  (repeat' split) <;> simp

@[simp] theorem judgeTrip_dcap (code : Nat) : (judgeTrip s code).trc.dcap = s.trc.dcap := by
  simp only [judgeTrip, judgeShort]
  split <;> simp

@[simp] theorem tripMeasure_dcap : (tripMeasure s).trc.dcap = s.trc.dcap := by
  simp only [tripMeasure]
  split <;> simp

@[simp] theorem overcurrent_dcap (milliamps : Nat) : (overcurrent s milliamps).trc.dcap = s.trc.dcap := by
  simp only [overcurrent, bridgeTripped]
  split <;> simp

@[simp] theorem retryExpiry_dcap : (retryExpiry s).trc.dcap = s.trc.dcap := by
  simp only [retryExpiry]
  split <;> simp

end

end Sys2Proof.Laws
end

section
/-!
SUPPORT. The laws of the sound engine through its operations: no cue twice across the pool and the resume stack, and an engine ON
exactly as mute and the power state give it (R151 to R160).
-/
namespace Sys2Proof.Laws

open Sys2Proof.Machine

/-! ### The pool and the resume stack (R159) -/

/-- No cue plays or waits twice; at most four wait, each a LOOP cue; the pool has its four voices. -/
structure PoolLaw (loops : Nat → Bool) (pool : List Voice) (stack : List Nat) : Prop where
  apart : (pool.filterMap (fun v => v.cue) ++ stack).Nodup
  depth : stack.length ≤ 4
  size : pool.length = 4
  loop : ∀ c ∈ stack, loops c = true

/-- The law of the pool and the resume stack of a part. -/
def PoolSound (s : State) : Prop := PoolLaw (fun c => (s.cueRecord c).loop) s.snd.pool s.snd.stack

theorem poolSafe_iff (s : State) : PoolSafe s ↔ PoolSound s :=
  ⟨fun ⟨apart, depth, size, loop⟩ => ⟨apart, depth, size, loop⟩,
    fun ⟨apart, depth, size, loop⟩ => ⟨apart, depth, size, loop⟩⟩

/-- The cues playing in the pool but at one place. -/
def cuesBeside (pool : List Voice) (place : Nat) : List Nat := (pool.eraseIdx place).filterMap (fun v => v.cue)

section
variable {loops : Nat → Bool} {pool : List Voice} {stack : List Nat} {place c : Nat} {v : Voice}

theorem poolCues_perm (at_ : pool[place]? = some v) :
    (pool.filterMap (fun v => v.cue)).Perm (v.cue.toList ++ cuesBeside pool place) := by
  obtain ⟨room, is⟩ := List.getElem?_eq_some_iff.mp at_
  have perm := (List.getElem_cons_eraseIdx_perm room).symm.filterMap (fun v => v.cue)
  rw [is] at perm
  cases cue : v.cue <;> simpa [List.filterMap_cons, cue, cuesBeside] using perm

theorem cuesBeside_setAt (pool : List Voice) (place : Nat) (v : Voice) :
    cuesBeside (setAt pool place v) place = cuesBeside pool place := by
  rw [cuesBeside, setAt, List.eraseIdx_set_eq, cuesBeside]

theorem poolCues_setAt_perm (room : place < pool.length) (v : Voice) :
    ((setAt pool place v).filterMap (fun v => v.cue)).Perm (v.cue.toList ++ cuesBeside pool place) := by
  have is : (setAt pool place v)[place]? = some v := by simp [setAt, room]
  exact cuesBeside_setAt pool place v ▸ poolCues_perm is

theorem cuesBeside_subset (pool : List Voice) (place : Nat) : cuesBeside pool place ⊆ pool.filterMap (fun v => v.cue) :=
  ((List.eraseIdx_sublist pool place).filterMap _).subset

/-- The law with the pool's cues as they were. -/
theorem PoolLaw.sameCues (h : PoolLaw loops pool stack) {voices : List Voice}
    (same : voices.map (fun v => v.cue) = pool.map (fun v => v.cue)) : PoolLaw loops voices stack where
  apart := by
    have cues (l : List Voice) : l.filterMap (fun v => v.cue) = (l.map (fun v => v.cue)).filterMap id := by
      rw [List.filterMap_map]
      rfl
    rw [cues, same, ← cues]
    exact h.apart
  depth := h.depth
  size := by simpa [h.size] using congrArg List.length same
  loop := h.loop

/-- Cues leave the resume stack. -/
theorem PoolLaw.waiting (h : PoolLaw loops pool stack) {rest : List Nat} (fewer : rest.Sublist stack) :
    PoolLaw loops pool rest where
  apart := h.apart.sublist (fewer.append_left _)
  depth := fewer.length_le.trans h.depth
  size := h.size
  loop := fun c hc => h.loop c (fewer.subset hc)

/-- A voice takes a cue that neither plays at another place nor waits, or falls free. -/
theorem PoolLaw.put (h : PoolLaw loops pool stack) (room : place < 4)
    (new : ∀ c ∈ v.cue, c ∉ cuesBeside pool place ∧ c ∉ stack) : PoolLaw loops (setAt pool place v) stack where
  apart := by
    have at_ : place < pool.length := h.size ▸ room
    have was := ((poolCues_perm (List.getElem?_eq_getElem at_)).append_right stack).nodup_iff.mp h.apart
    rw [((poolCues_setAt_perm at_ v).append_right stack).nodup_iff]
    rw [List.append_assoc] at was ⊢
    have others := was.of_append_right
    cases cue : v.cue with
    | none => exact others
    | some c =>
      obtain ⟨beside, waits⟩ := new c cue
      exact List.nodup_cons.mpr ⟨by simp [beside, waits], others⟩
  depth := h.depth
  size := by simpa [setAt] using h.size
  loop := h.loop

/-- A LOOP cue that neither plays nor waits goes on the resume stack. -/
theorem PoolLaw.push (h : PoolLaw loops pool stack) (loop : loops c = true)
    (plays : c ∉ pool.filterMap (fun v => v.cue)) (waits : c ∉ stack) : PoolLaw loops pool (stackPush stack c) where
  apart := by
    have kept := (h.waiting (List.take_sublist 3 stack)).apart
    have new : c ∉ pool.filterMap (fun v => v.cue) ++ stack.take 3 := by
      rw [List.mem_append]
      exact not_or.mpr ⟨plays, fun hc => waits (List.mem_of_mem_take hc)⟩
    exact List.perm_middle.nodup_iff.mpr (List.nodup_cons.mpr ⟨new, kept⟩)
  depth := by
    rw [stackPush, List.length_cons, List.length_take]
    omega
  size := h.size
  loop := List.forall_mem_cons.mpr ⟨loop, fun c hc => h.loop c (List.mem_of_mem_take hc)⟩

/-- What plays at a place plays at no other, and does not wait. -/
theorem PoolLaw.alone (h : PoolLaw loops pool stack) (at_ : pool[place]? = some v) (cue : v.cue = some c) :
    c ∉ cuesBeside pool place ∧ c ∉ stack := by
  have apart := ((poolCues_perm at_).append_right stack).nodup_iff.mp h.apart
  rw [cue, List.append_assoc] at apart
  simpa using (List.nodup_cons.mp apart).1

theorem PoolLaw.silent (size : pool.length = 4) : PoolLaw loops (pool.map fun _ => voiceFree) [] where
  apart := by simp [voiceFree]
  depth := by simp
  size := by simpa using size
  loop := nofun

end

/-! ### Where the pool plays a cue, is free, or gives way (R156, R157) -/

section
variable {pool : List Voice} {place c : Nat}

theorem poolPlaying_some (h : poolPlaying pool c = some place) : ∃ v, pool[place]? = some v ∧ v.cue = some c := by
  obtain ⟨room, is, -⟩ := List.findIdx?_eq_some_iff_getElem.mp h
  exact ⟨_, List.getElem?_eq_getElem room, by simpa using is⟩

theorem poolPlaying_none (h : poolPlaying pool c = none) : c ∉ pool.filterMap (fun v => v.cue) := by
  rw [poolPlaying, List.findIdx?_eq_none_iff] at h
  simpa using h

theorem poolFree_lt (h : poolFree pool = some place) : place < pool.length := by
  obtain ⟨room, -⟩ := List.findIdx?_eq_some_iff_getElem.mp h
  exact room

theorem victimFrom_lt (s : State) {bound n best : Nat} {w : Nat × Nat} (pool : List Voice) (low : best < bound)
    (high : n + pool.length ≤ bound) : victimFrom s n best w pool < bound := by
  induction pool generalizing n best w with
  | nil => exact low
  | cons v rest ih =>
    rw [List.length_cons] at high
    rw [victimFrom]
    split
    · exact ih (by omega) (by omega)
    · exact ih low (by omega)

theorem victim_lt {s : State} (size : s.snd.pool.length = 4) : victim s < 4 := by
  rw [victim]
  split
  · decide
  next v rest is =>
    rw [is, List.length_cons] at size
    exact victimFrom_lt s rest (by decide) (by omega)

theorem poolVoice_at {n : Snd} (h : (poolVoice n place).cue = some c) : n.pool[place]? = some (poolVoice n place) := by
  rcases Nat.lt_or_ge place n.pool.length with room | past
  · simp [poolVoice, List.getD_eq_getElem?_getD, room]
  · have free : poolVoice n place = voiceFree := List.getD_eq_default _ _ past
    rw [free] at h
    exact absurd h nofun

end

/-! ### Triggers and releases (R156 to R159) -/

section
variable {s : State} {c place : Nat}

theorem PoolSound.congr {t : State} (h : PoolSound s) (pool : t.snd.pool = s.snd.pool) (stack : t.snd.stack = s.snd.stack)
    (cues : t.tbs.active.cues = s.tbs.active.cues) : PoolSound t := by
  have record (c : Nat) : t.cueRecord c = s.cueRecord c := by rw [State.cueRecord, State.cueRecord, cues]
  simpa only [PoolSound, pool, stack, record] using h

/-- A cue that plays nowhere but at the place and waits nowhere starts there. -/
theorem PoolSound.start (h : PoolSound s) (room : place < 4) (new : c ∉ cuesBeside s.snd.pool place ∧ c ∉ s.snd.stack)
    (position : Nat) (held : Bool) : PoolSound (poolStart s place c position held) :=
  PoolLaw.put h room fun d hd => by
    cases hd
    exact new

theorem not_mem_stackRemove (stack : List Nat) (c : Nat) : c ∉ stackRemove stack c := by simp [stackRemove]

theorem PoolSound.unwaited (h : PoolSound s) (c : Nat) :
    PoolSound (s.setSnd { s.snd with stack := stackRemove s.snd.stack c }) :=
  PoolLaw.waiting h List.filter_sublist

/-- The contest: the victim gives way and waits if it is LOOP, or the new cue waits if it is (R157). -/
theorem PoolSound.contest (h : PoolSound s) (plays : c ∉ s.snd.pool.filterMap (fun v => v.cue)) (waits : c ∉ s.snd.stack) :
    PoolSound (poolContest s c) := by
  have law : PoolLaw _ _ _ := h
  have room : victim s < 4 := victim_lt law.size
  have beside : c ∉ cuesBeside s.snd.pool (victim s) := fun hc => plays (cuesBeside_subset _ _ hc)
  simp only [poolContest]
  split
  · simp only [pushPreempted]
    split
    next d cue =>
      split
      next loops =>
        have at_ := poolVoice_at cue
        have alone := law.alone at_ cue
        have freed : PoolLaw _ (setAt s.snd.pool (victim s) voiceFree) s.snd.stack := law.put room nofun
        have pushed := freed.push (c := d) (Bool.and_elim_left loops)
          (by
            rw [(poolCues_setAt_perm (law.size ▸ room) voiceFree).mem_iff]
            simpa [voiceFree] using alone.1) alone.2
        have differs : c ≠ d := by
          rintro rfl
          exact plays (List.mem_filterMap.mpr ⟨_, List.mem_of_getElem? at_, cue⟩)
        have apart : c ∉ stackPush s.snd.stack d :=
          List.not_mem_cons_of_ne_of_not_mem differs fun hc => waits (List.mem_of_mem_take hc)
        have put := pushed.put room (v := voiceStart c 0 (s.cueRecord c).volume s.snd.nextOrder true) fun e he => by
          cases he
          exact ⟨(cuesBeside_setAt _ _ _).symm ▸ beside, apart⟩
        rw [setAt, setAt, List.set_set] at put
        exact put
      next => exact h.start room ⟨beside, waits⟩ 0 true
    next => exact h.start room ⟨beside, waits⟩ 0 true
  · split
    next loops => exact law.push loops plays waits
    next => exact h

theorem PoolSound.triggered (h : PoolSound s) (c : Nat) : PoolSound (soundTrigger s c) := by
  have law : PoolLaw _ _ _ := h
  simp only [soundTrigger]
  split
  · split
    next place plays =>
      obtain ⟨v, at_, cue⟩ := poolPlaying_some plays
      have room : place < 4 := law.size ▸ (List.getElem?_eq_some_iff.mp at_).1
      exact h.start room (law.alone at_ cue) 0 true
    next plays =>
      have free := poolPlaying_none plays
      simp only [poolPlace]
      split
      next place is =>
        have room : place < 4 := law.size ▸ poolFree_lt is
        exact (h.unwaited c).start room
          ⟨fun hc => free (cuesBeside_subset _ _ hc), not_mem_stackRemove s.snd.stack c⟩ 0 true
      next => exact (h.unwaited c).contest free (not_mem_stackRemove s.snd.stack c)
  · exact h

theorem PoolSound.released (h : PoolSound s) (c : Nat) : PoolSound (soundRelease s c) := by
  simp only [soundRelease]
  split
  · refine (PoolLaw.waiting h List.filter_sublist).sameCues ?_
    simp only [setSnd_snd, List.map_map]
    congr 1
    funext v
    simp only [Function.comp]
    split <;> rfl
  · exact h

/-! ### The voices move on (R150, R151, R160) -/

theorem PoolSound.fallsFree (h : PoolSound s) (room : place < 4) : PoolSound (poolFallsFree s place) := by
  have law : PoolLaw _ _ _ := h
  simp only [poolFallsFree]
  split
  next => exact law.put room nofun
  next c rest is =>
    have popped : PoolSound (s.setSnd { s.snd with stack := rest }) :=
      law.waiting (is ▸ List.sublist_cons_self c rest)
    have apart := law.apart
    rw [is, List.perm_middle.nodup_iff, List.nodup_cons, List.mem_append, not_or] at apart
    obtain ⟨⟨plays, waits⟩, -⟩ := apart
    exact popped.start room ⟨fun hc => plays (cuesBeside_subset _ _ hc), waits⟩ _ true

theorem PoolSound.finished (h : PoolSound s) (room : place < 4) (v : Voice) (next : Option Nat) :
    PoolSound (poolFinished s place v next) := by
  have law : PoolLaw _ _ _ := h
  simp only [poolFinished]
  split
  · exact h.fallsFree room
  next n =>
    split
    · exact h.fallsFree room
    next other =>
      have elsewhere : n ∉ (setAt s.snd.pool place voiceFree).filterMap (fun v => v.cue) := by
        simp only [Bool.or_eq_true, not_or, playsElsewhere, List.any_eq_true, decide_eq_true_eq, not_exists, not_and] at other
        simpa using other.2
      have beside : n ∉ cuesBeside s.snd.pool place := by
        rw [(poolCues_setAt_perm (law.size ▸ room) voiceFree).mem_iff] at elsewhere
        simpa [voiceFree] using elsewhere
      split
      · exact (h.unwaited n).start room ⟨beside, not_mem_stackRemove s.snd.stack n⟩ 0 true
      next waits => exact h.start room ⟨beside, waits⟩ 0 _

theorem voiceMoved_cue (r : CueRecord) (v : Voice) : (voiceMoved r v).cue = v.cue := by
  simp only [voiceMoved]
  split <;> rfl

theorem PoolSound.advanced (h : PoolSound s) (place : Nat) : PoolSound (poolAdvance s place) := by
  have law : PoolLaw _ _ _ := h
  simp only [poolAdvance]
  split
  · exact h
  next c cue =>
    have at_ := poolVoice_at cue
    have room : place < 4 := law.size ▸ (List.getElem?_eq_some_iff.mp at_).1
    split
    · exact h.finished room _ _
    · refine law.put room fun d hd => ?_
      rw [voiceMoved_cue] at hd
      exact law.alone at_ hd

end

/-! ### What the voices leave of SND (R152, R162) -/

/-- Of SND, what no voice moves: the engine state with what gives it, the cap and the write state. -/
def soundFace (n : Snd) : Bool × Bool × PowerState × Nat × SampleWrite := (n.on, n.mute, n.power, n.cap, n.writeState)

section
variable (s : State)

theorem pushPreempted_soundFace (v : Voice) : soundFace (pushPreempted s v).snd = soundFace s.snd := by
  simp only [pushPreempted]
  (repeat' split) <;> rfl

theorem poolContest_soundFace (c : Nat) : soundFace (poolContest s c).snd = soundFace s.snd := by
  simp only [poolContest]
  split
  · exact pushPreempted_soundFace s _
  · split <;> rfl

theorem poolPlace_soundFace (c : Nat) : soundFace (poolPlace s c).snd = soundFace s.snd := by
  simp only [poolPlace]
  split
  · rfl
  · exact poolContest_soundFace _ c

theorem soundTrigger_soundFace (c : Nat) : soundFace (soundTrigger s c).snd = soundFace s.snd := by
  simp only [soundTrigger]
  split
  · split
    · rfl
    · exact poolPlace_soundFace s c
  · rfl

theorem soundRelease_soundFace (c : Nat) : soundFace (soundRelease s c).snd = soundFace s.snd := by
  simp only [soundRelease]
  split <;> rfl

theorem soundChuff_soundFace (index : Nat) : soundFace (soundChuff s index).snd = soundFace s.snd := by
  simp only [soundChuff]
  split <;> rfl

theorem poolFallsFree_soundFace (place : Nat) : soundFace (poolFallsFree s place).snd = soundFace s.snd := by
  simp only [poolFallsFree]
  split <;> rfl

theorem poolFinished_soundFace (place : Nat) (v : Voice) (next : Option Nat) :
    soundFace (poolFinished s place v next).snd = soundFace s.snd := by
  simp only [poolFinished]
  split
  · exact poolFallsFree_soundFace s place
  · split
    · exact poolFallsFree_soundFace s place
    · split <;> rfl

theorem poolAdvance_soundFace (place : Nat) : soundFace (poolAdvance s place).snd = soundFace s.snd := by
  simp only [poolAdvance]
  split
  · rfl
  · split
    · exact poolFinished_soundFace s place _ _
    · rfl

/-- What the chuff voice and the background voice leave: the face of SND, the pool and the resume stack. -/
def soundRest (n : Snd) : (Bool × Bool × PowerState × Nat × SampleWrite) × List Voice × List Nat := (soundFace n, n.pool, n.stack)

theorem chuffAdvance_soundRest : soundRest (chuffAdvance s).snd = soundRest s.snd := by
  simp only [chuffAdvance]
  split <;> rfl

theorem backgroundAdvance_soundRest : soundRest (backgroundAdvance s).snd = soundRest s.snd := by
  simp only [backgroundAdvance]
  split <;> rfl

theorem backgroundTakenUp_soundRest : soundRest (backgroundTakenUp s).snd = soundRest s.snd := by
  simp only [backgroundTakenUp]
  split <;> rfl

theorem voicesAdvance_soundFace : soundFace (voicesAdvance s).snd = soundFace s.snd := by
  simp only [voicesAdvance, poolAdvance_soundFace]
  exact (congrArg Prod.fst (backgroundAdvance_soundRest _)).trans (congrArg Prod.fst (chuffAdvance_soundRest s))

theorem outputSampled_soundFace (inTime : BitVec 6) : soundFace (outputSampled s inTime).snd = soundFace s.snd := by
  simp only [outputSampled]
  split
  · exact (voicesAdvance_soundFace _).trans (congrArg Prod.fst (backgroundTakenUp_soundRest s))
  · rfl

end

/-! ### The cue tables and the rest of the state keep -/

/-- The moves of the voices leave the cues table. -/
theorem voices_cues (s : State) : (chuffAdvance s).tbs.active.cues = s.tbs.active.cues ∧
    (backgroundAdvance s).tbs.active.cues = s.tbs.active.cues ∧ (backgroundTakenUp s).tbs.active.cues = s.tbs.active.cues := by
  refine ⟨?_, ?_, ?_⟩
  · simp only [chuffAdvance]
    split <;> rfl
  · simp only [backgroundAdvance]
    split <;> rfl
  · simp only [backgroundTakenUp]
    split <;> rfl

section
variable {s t : State}

theorem PoolSound.rest (h : PoolSound s) (same : soundRest t.snd = soundRest s.snd)
    (cues : t.tbs.active.cues = s.tbs.active.cues) : PoolSound t := by
  obtain ⟨-, voices⟩ := Prod.ext_iff.mp same
  obtain ⟨pool, stack⟩ := Prod.ext_iff.mp voices
  exact h.congr pool stack cues

theorem PoolSound.voicesAdvance (h : PoolSound s) : PoolSound (voicesAdvance s) := by
  have chuff := h.rest (chuffAdvance_soundRest s) (voices_cues s).1
  obtain ⟨-, cues, -⟩ := voices_cues (chuffAdvance s)
  have background := chuff.rest (backgroundAdvance_soundRest _) cues
  exact (((background.advanced 0).advanced 1).advanced 2).advanced 3

theorem PoolSound.sampled (h : PoolSound s) (inTime : BitVec 6) : PoolSound (outputSampled s inTime) := by
  simp only [outputSampled]
  split
  · obtain ⟨-, -, cues⟩ := voices_cues s
    have background := h.rest (backgroundTakenUp_soundRest s) cues
    exact PoolSound.voicesAdvance (background.congr rfl rfl rfl)
  · exact h

theorem PoolSound.chuffed (h : PoolSound s) (index : Nat) : PoolSound (soundChuff s index) := by
  simp only [soundChuff]
  split <;> exact h

theorem PoolSound.stopped (h : PoolSound s) (snd : t.snd.pool = s.snd.pool.map fun _ => voiceFree) (stack : t.snd.stack = []) :
    PoolSound t := by
  have law : PoolLaw _ _ _ := h
  rw [PoolSound, snd, stack]
  exact PoolLaw.silent law.size

theorem PoolSound.engineWork (h : PoolSound s) : PoolSound (engineWork s) := by
  simp only [Machine.engineWork]
  split
  · exact h
  · split
    · exact h
    · exact h.stopped rfl rfl

theorem PoolSound.cuesInstalled (h : PoolSound s) {u : State} (snd : u.snd = s.snd) : PoolSound (cuesInstalled u) := by
  simp only [Machine.cuesInstalled]
  split <;> exact h.stopped (congrArg (fun n : Snd => n.pool.map fun _ => voiceFree) snd) rfl

end

/-! ### The engine state (R152) -/

/-- No voice plays and no cue waits. -/
def Silent (n : Snd) : Prop := n.chuff.cue = none ∧ n.background.cue = none ∧ poolCues n = [] ∧ n.stack = []

/-- The law of the engine state. -/
def EngineSound (s : State) : Prop := s.snd.on = engineOn s.snd.mute s.snd.power ∧ (s.snd.on = false → Silent s.snd)

theorem engineSafe_iff (s : State) : EngineSafe s ↔ EngineSound s := Iff.rfl

theorem soundStopped_silent (n : Snd) : Silent (soundStopped n) := by
  simp [Silent, soundStopped, poolCues, voiceFree]

section
variable {s t : State}

/-- An engine that is ON may play anything. -/
theorem EngineSound.playing (h : EngineSound s) (on : s.snd.on = true) (face : soundFace t.snd = soundFace s.snd) :
    EngineSound t := by
  obtain ⟨gives, -⟩ := h
  simp only [soundFace, Prod.mk.injEq] at face
  obtain ⟨onKept, mute, power, -⟩ := face
  refine ⟨by rw [onKept, mute, power, gives], fun off => ?_⟩
  rw [onKept, on] at off
  exact absurd off (by decide)

/-- The engine state is worked out again: whatever gives it, it is right, and silent when OFF. -/
theorem engineWork_sound (quiet : s.snd.on = false → Silent s.snd) : EngineSound (engineWork s) := by
  simp only [engineWork]
  split
  next same => exact ⟨same.symm, quiet⟩
  · split
    next on => exact ⟨by simpa using on.symm, fun off => absurd off (by simp)⟩
    next off => exact ⟨(Bool.eq_false_of_not_eq_true off).symm, fun _ => soundStopped_silent s.snd⟩

theorem EngineSound.muted (h : EngineSound s) (on : Bool) : EngineSound (soundMute s on) :=
  engineWork_sound (s := s.setSnd { s.snd with mute := on }) h.2

theorem EngineSound.powered (h : EngineSound s) (p : PowerState) : EngineSound (soundPower s p) :=
  engineWork_sound (s := s.setSnd { s.snd with power := p }) h.2

theorem EngineSound.triggered (h : EngineSound s) (c : Nat) : EngineSound (soundTrigger s c) := by
  cases on : s.snd.on with
  | true => exact h.playing on (soundTrigger_soundFace s c)
  | false => simpa [soundTrigger, on] using h

theorem EngineSound.released (h : EngineSound s) (c : Nat) : EngineSound (soundRelease s c) := by
  cases on : s.snd.on with
  | true => exact h.playing on (soundRelease_soundFace s c)
  | false => simpa [soundRelease, on] using h

theorem EngineSound.chuffed (h : EngineSound s) (index : Nat) : EngineSound (soundChuff s index) := by
  cases on : s.snd.on with
  | true => exact h.playing on (soundChuff_soundFace s index)
  | false => simpa [soundChuff, on] using h

theorem EngineSound.sampled (h : EngineSound s) (inTime : BitVec 6) : EngineSound (outputSampled s inTime) := by
  cases on : s.snd.on with
  | true => exact h.playing on (outputSampled_soundFace s inTime)
  | false =>
    have quiet : outputSampled s inTime = s.setSnd { s.snd with output := 0 } := by simp [outputSampled, on]
    rw [quiet]
    exact h

theorem EngineSound.cuesInstalled (h : EngineSound s) : EngineSound (cuesInstalled s) := by
  obtain ⟨gives, -⟩ := h
  simp only [Machine.cuesInstalled]
  split
  next on => exact ⟨gives, fun off => absurd (on.symm.trans off) (by decide)⟩
  next => exact ⟨gives, fun _ => soundStopped_silent s.snd⟩

end

end Sys2Proof.Laws
end

section
/-!
SUPPORT. The laws of the sample memory and of the smoke unit through their operations (R145 to R148, R167 to R173).
-/
namespace Sys2Proof.Laws

open Sys2Proof.Machine

/-! ### The sample memory (R145 to R148) -/

/-- What is being written lies within the sample memory. -/
def writeFits : SampleWrite → Prop
  | .idle => True
  | .erasing sector => sector ≤ 4095
  | .programming a data => a + data.length ≤ 16777216

/-- The law of the sample memory. -/
def SampleSound (s : State) : Prop := memoryWf s.samples = true ∧ writeFits s.snd.writeState

theorem sampleSafe_iff (s : State) : SampleSafe s ↔ SampleSound s := by
  rw [SampleSafe, SampleSound]
  cases s.snd.writeState <;> rfl

theorem eraseAnswer_fits {n : Snd} {sector : Nat} (accepted : eraseAnswer n sector = .accepted) : writeFits (.erasing sector) := by
  simp only [eraseAnswer] at accepted
  split at accepted
  · cases accepted
  · split at accepted
    · cases accepted
    · split at accepted
      · cases accepted
      next within => exact Nat.not_lt.mp within

theorem writeAnswer_fits {n : Snd} {a : Nat} {data : List Byte} (accepted : writeAnswer n a data.length = .accepted) :
    writeFits (.programming a data) := by
  simp only [writeAnswer] at accepted
  split at accepted
  · cases accepted
  · split at accepted
    · cases accepted
    · split at accepted
      · cases accepted
      next within => exact Nat.not_lt.mp within

section
variable {s t : State}

theorem SampleSound.congr (h : SampleSound s) (samples : t.samples = s.samples) (writes : t.snd.writeState = s.snd.writeState) :
    SampleSound t := by
  rwa [SampleSound, samples, writes]

theorem SampleSound.writing (h : SampleSound s) {w : SampleWrite} (fits : writeFits w) : SampleSound (setWriteState s w) :=
  ⟨h.1, fits⟩

theorem SampleSound.erased (h : SampleSound s) : SampleSound (eraseDone s) := by
  simp only [eraseDone]
  split
  · exact ⟨memoryWf_eraseSector _ h.1, trivial⟩
  · exact h
  · exact h

theorem SampleSound.programmed (h : SampleSound s) : SampleSound (programDone s) := by
  obtain ⟨wf, fits⟩ := h
  simp only [programDone]
  split
  next a data writes =>
    rw [writes] at fits
    exact ⟨memoryWf_programBytes wf fits, trivial⟩
  · exact ⟨wf, fits⟩
  · exact ⟨wf, fits⟩

/-- A reset that interrupts a write leaves the memory well formed (R148). -/
theorem SampleSound.interrupted (h : SampleSound s) : memoryWf (sampleInterrupted s).samples = true := by
  obtain ⟨wf, fits⟩ := h
  simp only [sampleInterrupted]
  split
  · exact wf
  · exact memoryWf_eraseCutShort _ _ wf
  next a data writes =>
    rw [writes] at fits
    exact memoryWf_programCutShort _ wf fits

end

/-! ### The smoke unit's timers and states (R167 to R173) -/

/-- SMK is HEATING, READY or SUSPENDED. -/
def smokeWorks (k : Smk) : Prop := k.state = .heating ∨ k.state = .ready ∨ k.state = .suspended

/-- The law of the smoke unit's timers. -/
structure SmokeLaw (k : Smk) : Prop where
  off : k.state = .off ↔ k.enable = false
  request : k.requestTimer.isSome = true ↔ smokeWorks k
  puff : k.puffTimer.isSome = true → k.state = .ready
  aged : k.ageTimer.isSome = true → k.fresh = true ∧ smokeWorks k
  ages : smokeWorks k → k.fresh = true → k.ageTimer.isSome = true

theorem smokeSafe_iff (s : State) : SmokeSafe s ↔ SmokeLaw s.smk :=
  ⟨fun ⟨off, request, puff, aged, ages⟩ => ⟨off, request, puff, aged, ages⟩,
    fun ⟨off, request, puff, aged, ages⟩ => ⟨off, request, puff, aged, ages⟩⟩

/-- The law of the heater: at most Hmax, and off unless the unit regulates (R171). -/
def HeaterLaw (k : Smk) : Prop := k.heater ≤ k.hmax ∧ (0 < k.heater → k.state = .heating ∨ k.state = .ready)

theorem HeaterLaw.cold {k : Smk} (cold : k.heater = 0) : HeaterLaw k := ⟨by simp [cold], fun hot => absurd hot (by simp [cold])⟩

/-- The heater of a unit that regulates. -/
theorem HeaterLaw.regulates {k : Smk} (works : k.state = .heating ∨ k.state = .ready) (limit : k.heater ≤ k.hmax) : HeaterLaw k :=
  ⟨limit, fun _ => works⟩

theorem heaterDuty_le (target gain hmax tm : Nat) : heaterDuty target gain hmax tm ≤ hmax := by
  have eq := heaterDuty_eq target gain hmax tm
  omega

section
variable {k : Smk}

theorem SmokeLaw.at_work (h : SmokeLaw k) (works : smokeWorks k) :
    k.enable = true ∧ k.requestTimer.isSome = true ∧ k.ageTimer.isSome = k.fresh := by
  refine ⟨?_, h.request.mpr works, Bool.eq_iff_iff.mpr ⟨fun age => (h.aged age).1, h.ages works⟩⟩
  have on : k.state ≠ .off := fun off => by simp [smokeWorks, off] at works
  simpa using mt h.off.mpr on

theorem SmokeLaw.at_rest (h : SmokeLaw k) (rests : ¬smokeWorks k) :
    k.requestTimer = none ∧ k.ageTimer = none ∧ k.puffTimer = none := by
  refine ⟨?_, ?_, ?_⟩ <;> refine Option.not_isSome_iff_eq_none.mp fun runs => rests ?_
  · exact h.request.mp runs
  · exact (h.aged runs).2
  · exact .inr (.inl (h.puff runs))

theorem SmokeLaw.of_work (on : k.enable = true) (works : smokeWorks k) (request : k.requestTimer.isSome = true)
    (puff : k.puffTimer.isSome = true → k.state = .ready) (age : k.ageTimer.isSome = k.fresh) : SmokeLaw k where
  off := by
    have other : k.state ≠ .off := fun off => by simp [smokeWorks, off] at works
    simp [other, on]
  request := by simp [request, works]
  puff := puff
  aged := fun runs => ⟨age ▸ runs, works⟩
  ages := fun _ fresh => age ▸ fresh

theorem SmokeLaw.of_rest (rests : k.state = .off ∧ k.enable = false ∨ k.state = .fault ∧ k.enable = true)
    (request : k.requestTimer = none) (age : k.ageTimer = none) (puff : k.puffTimer = none) : SmokeLaw k := by
  rcases rests with ⟨state, enable⟩ | ⟨state, enable⟩ <;>
    exact ⟨by simp [state, enable], by simp [smokeWorks, state, request], by simp [puff], by simp [age],
      by simp [smokeWorks, state]⟩

/-- The law rests on nothing but the states, the timers, and the age. -/
theorem SmokeLaw.congr {l : Smk} (h : SmokeLaw k) (state : l.state = k.state) (enable : l.enable = k.enable)
    (request : l.requestTimer.isSome = k.requestTimer.isSome) (puff : l.puffTimer.isSome = true → k.puffTimer.isSome = true)
    (age : l.ageTimer = k.ageTimer) (fresh : l.fresh = k.fresh) : SmokeLaw l where
  off := by rw [state, enable, h.off]
  request := by rw [request, h.request, smokeWorks, smokeWorks, state]
  puff := fun runs => state ▸ h.puff (puff runs)
  aged := by
    rw [age, fresh, smokeWorks, state]
    exact h.aged
  ages := by
    rw [age, fresh, smokeWorks, state]
    exact h.ages

theorem HeaterLaw.off_of (h : HeaterLaw k) (rests : ¬(k.state = .heating ∨ k.state = .ready)) : k.heater = 0 :=
  Nat.eq_zero_of_not_pos (mt h.2 rests)

end

/-! ### The unit's events -/

section
variable {s : State}

theorem smokeEnd_smk (before : SmokeState) (k : Smk) : (smokeEnd before (s.setSmk k)).smk = k := by simp

theorem SmokeLaw.enabled (h : SmokeLaw s.smk) (on : Bool) : SmokeLaw (smokeEnable s on).smk := by
  by_cases off : s.smk.state = .off
  · have rests : ¬smokeWorks s.smk := by simp [smokeWorks, off]
    obtain ⟨request, age, puff⟩ := h.at_rest rests
    cases on
    · rw [smokeEnable_off_kept off]
      exact .of_rest (.inl ⟨off, rfl⟩) request age puff
    · rw [smokeEnable_on_started off]
      refine .of_work rfl ?_ rfl (by simp [puff]) (by simp [age])
      by_cases capped : s.smk.hmax = 0 <;> simp [smokeWorks, capped]
  · cases on
    · rw [smokeEnable_off_ended off, smokeEnd_smk]
      exact .of_rest (.inl ⟨rfl, rfl⟩) rfl rfl rfl
    · rw [smokeEnable_on_kept off]
      have enable : s.smk.enable = true := by simpa using mt h.off.mpr off
      exact h.congr rfl enable.symm rfl id rfl rfl

theorem HeaterLaw.enabled (h : HeaterLaw s.smk) (on : Bool) : HeaterLaw (smokeEnable s on).smk := by
  by_cases off : s.smk.state = .off <;> cases on
  · rw [smokeEnable_off_kept off]
    exact h
  · rw [smokeEnable_on_started off]
    exact .cold rfl
  · rw [smokeEnable_off_ended off, smokeEnd_smk]
    exact .cold rfl
  · rw [smokeEnable_on_kept off]
    exact h

/-- A temperature is ignored, or taken by a unit that works. -/
theorem smokeResult_smk_cases (s : State) (tm : Nat) : (smokeResult s tm).smk = s.smk ∨
    smokeWorks s.smk ∧ (smokeResult s tm).smk = smokeTaken s tm := by
  by_cases works : smokeWorks s.smk
  · rw [smokeResult_heeded works, smokeEnd_smk]
    exact .inr ⟨works, rfl⟩
  · refine .inl (congrArg State.smk (smokeResult_ignored ?_))
    cases state : s.smk.state <;> simp_all [smokeWorks]

theorem SmokeLaw.measured (h : SmokeLaw s.smk) (tm : Nat) : SmokeLaw (smokeResult s tm).smk := by
  rcases smokeResult_smk_cases s tm with same | ⟨works, taken⟩
  · rwa [same]
  obtain ⟨on, request, -⟩ := h.at_work works
  rw [taken]
  rcases Nat.lt_or_ge tm s.smkDry with wet | dry
  · rcases (or_assoc.mpr works) with regulates | suspended
    · rw [smokeTaken_regulated wet regulates]
      by_cases warm : s.smkTarget ≤ tm + s.smkBand
      · exact .of_work on (by simp [smokeWorks, warm]) request (by simp [warm]) rfl
      · refine .of_work on (by simp [smokeWorks, warm]) request ?_ rfl
        by_cases ready : s.smk.state = .ready
        · simp [ready, warm]
        · simp [ready, mt h.puff ready]
    · rw [smokeTaken_suspended wet suspended]
      exact .of_work on works request h.puff rfl
  · rw [smokeTaken_dry dry]
    exact .of_rest (.inr ⟨rfl, on⟩) rfl rfl rfl

theorem HeaterLaw.measured (h : HeaterLaw s.smk) (tm : Nat) : HeaterLaw (smokeResult s tm).smk := by
  rcases smokeResult_smk_cases s tm with same | ⟨works, taken⟩
  · rwa [same]
  rw [taken]
  rcases Nat.lt_or_ge tm s.smkDry with wet | dry
  · rcases (or_assoc.mpr works) with regulates | suspended
    · rw [smokeTaken_regulated wet regulates]
      refine .regulates ?_ (heaterDuty_le _ _ _ _)
      by_cases warm : s.smkTarget ≤ tm + s.smkBand <;> simp [warm]
    · rw [smokeTaken_suspended wet suspended]
      exact h
  · rw [smokeTaken_dry dry]
    exact .cold rfl

/-- A cap suspends a unit that regulates, limits it, resumes a suspended one, or is only kept (R171). -/
theorem smokeCap_smk_cases (s : State) (hmax : Nat) :
    (hmax = 0 ∧ (s.smk.state = .heating ∨ s.smk.state = .ready)) ∨
      (0 < hmax ∧ (s.smk.state = .heating ∨ s.smk.state = .ready)) ∨ (0 < hmax ∧ s.smk.state = .suspended) ∨
      (s.smk.state = .off ∨ s.smk.state = .fault ∨ s.smk.state = .suspended ∧ hmax = 0) := by
  rcases Nat.eq_zero_or_pos hmax with zero | positive <;> cases s.smk.state <;> simp_all

theorem SmokeLaw.capped (h : SmokeLaw s.smk) (hmax : Nat) : SmokeLaw (smokeCap s hmax).smk := by
  rcases smokeCap_smk_cases s hmax with ⟨rfl, works⟩ | ⟨positive, works⟩ | ⟨positive, suspended⟩ | kept
  · obtain ⟨on, request, age⟩ := h.at_work (or_assoc.mp (.inl works))
    rw [smokeCap_zero works, smokeEnd_smk]
    exact .of_work on (.inr (.inr rfl)) request nofun age
  · rw [smokeCap_limits works positive]
    exact h.congr rfl rfl rfl id rfl rfl
  · obtain ⟨on, request, age⟩ := h.at_work (.inr (.inr suspended))
    rw [smokeCap_resumes suspended positive]
    have quiet : ¬s.smk.puffTimer.isSome = true := mt h.puff (by simp [suspended])
    exact .of_work on (.inl rfl) request (fun runs => absurd runs quiet) age
  · rw [smokeCap_kept kept]
    exact h.congr rfl rfl rfl id rfl rfl

theorem HeaterLaw.capped (h : HeaterLaw s.smk) (hmax : Nat) : HeaterLaw (smokeCap s hmax).smk := by
  rcases smokeCap_smk_cases s hmax with ⟨rfl, works⟩ | ⟨positive, works⟩ | ⟨positive, suspended⟩ | kept
  · rw [smokeCap_zero works, smokeEnd_smk]
    exact .cold rfl
  · rw [smokeCap_limits works positive]
    exact .regulates works (Nat.min_le_right _ _)
  · rw [smokeCap_resumes suspended positive]
    refine .regulates (.inl rfl) ?_
    simp only [setSmk_smk, smokeResumed]
    split
    · exact heaterDuty_le _ _ _ _
    · exact Nat.zero_le _
  · rw [smokeCap_kept kept]
    exact .cold (h.off_of fun works => by rcases works with state | state <;> simp [state] at kept)

@[simp] theorem smokeCap_hmax (s : State) (hmax : Nat) : (smokeCap s hmax).smk.hmax = hmax := by
  rcases smokeCap_smk_cases s hmax with ⟨rfl, works⟩ | ⟨positive, works⟩ | ⟨positive, suspended⟩ | kept
  · rw [smokeCap_zero works, smokeEnd_smk]
  · rw [smokeCap_limits works positive]
    rfl
  · rw [smokeCap_resumes suspended positive]
    rfl
  · rw [smokeCap_kept kept]
    rfl

theorem SmokeLaw.powered (h : SmokeLaw s.smk) (p : PowerState) : SmokeLaw (smokePower s p).smk := by
  by_cases works : s.smk.state = .heating ∨ s.smk.state = .ready
  · obtain ⟨on, request, age⟩ := h.at_work (or_assoc.mp (.inl works))
    by_cases normal : p = .normal
    · subst normal
      rw [smokePower_normal works]
      exact h.congr rfl rfl rfl nofun rfl rfl
    · rw [smokePower_suspends works normal, smokeEnd_smk]
      exact .of_work on (.inr (.inr rfl)) request nofun age
  · rw [smokePower_idle works]
    exact h.congr rfl rfl rfl id rfl rfl

theorem HeaterLaw.powered (h : HeaterLaw s.smk) (p : PowerState) : HeaterLaw (smokePower s p).smk := by
  by_cases works : s.smk.state = .heating ∨ s.smk.state = .ready
  · by_cases normal : p = .normal
    · subst normal
      rw [smokePower_normal works]
      exact h
    · rw [smokePower_suspends works normal, smokeEnd_smk]
      exact .cold rfl
  · rw [smokePower_idle works]
    exact h

@[simp] theorem smokePower_hmax (s : State) (p : PowerState) : (smokePower s p).smk.hmax = s.smk.hmax := by
  by_cases works : s.smk.state = .heating ∨ s.smk.state = .ready
  · by_cases normal : p = .normal
    · subst normal
      rw [smokePower_normal works]
      rfl
    · rw [smokePower_suspends works normal, smokeEnd_smk]
  · rw [smokePower_idle works]
    rfl

/-! ### The unit's timers and the chuff (R168, R172) -/

theorem SmokeLaw.requested (h : SmokeLaw s.smk) : SmokeLaw (smokeRequestExpiry s).smk := by
  simp only [smokeRequestExpiry]
  split
  next runs => exact h.congr rfl rfl runs.symm id rfl rfl
  · exact h

theorem HeaterLaw.requested (h : HeaterLaw s.smk) : HeaterLaw (smokeRequestExpiry s).smk := by
  simp only [smokeRequestExpiry]
  split <;> exact h

theorem SmokeLaw.staled (h : SmokeLaw s.smk) : SmokeLaw (smokeAgeExpiry s).smk := by
  simp only [smokeAgeExpiry]
  split
  · exact ⟨h.off, h.request, h.puff, nofun, nofun⟩
  · exact h

theorem HeaterLaw.staled (h : HeaterLaw s.smk) : HeaterLaw (smokeAgeExpiry s).smk := by
  simp only [smokeAgeExpiry]
  split
  · exact .cold rfl
  · exact h

theorem SmokeLaw.puffEnded (h : SmokeLaw s.smk) : SmokeLaw (puffExpiry s).smk := by
  simp only [puffExpiry]
  split
  · exact h.congr rfl rfl rfl nofun rfl rfl
  · exact h

theorem HeaterLaw.puffEnded (h : HeaterLaw s.smk) : HeaterLaw (puffExpiry s).smk := by
  simp only [puffExpiry]
  split <;> exact h

theorem SmokeLaw.puffed (h : SmokeLaw s.smk) : SmokeLaw (smokeChuff s).smk := by
  simp only [smokeChuff]
  split
  next puffs =>
    have ready : s.smk.state = .ready := by
      simp only [smokePuffs, Bool.and_eq_true, decide_eq_true_eq] at puffs
      exact puffs.1
    exact ⟨h.off, h.request, fun _ => ready, h.aged, h.ages⟩
  · exact h

theorem HeaterLaw.puffed (h : HeaterLaw s.smk) : HeaterLaw (smokeChuff s).smk := by
  simp only [smokeChuff]
  split <;> exact h

/-! ### What the events leave of the cap and the power state -/

/-- The copies that SMK holds of what PPM publishes. -/
def smokeCopies (k : Smk) : Nat × PowerState := (k.hmax, k.power)

theorem smokeEnable_copies (s : State) (on : Bool) : smokeCopies (smokeEnable s on).smk = smokeCopies s.smk := by
  by_cases off : s.smk.state = .off <;> cases on
  · rw [smokeEnable_off_kept off]
    rfl
  · rw [smokeEnable_on_started off]
    rfl
  · rw [smokeEnable_off_ended off, smokeEnd_smk]
    rfl
  · rw [smokeEnable_on_kept off]
    rfl

theorem smokeResult_copies (s : State) (tm : Nat) : smokeCopies (smokeResult s tm).smk = smokeCopies s.smk := by
  rcases smokeResult_smk_cases s tm with same | ⟨-, taken⟩
  · rw [same]
  · rw [taken]
    simp only [smokeTaken, smokeRegulated]
    (repeat' split) <;> rfl

theorem smokeRequestExpiry_copies (s : State) : smokeCopies (smokeRequestExpiry s).smk = smokeCopies s.smk := by
  simp only [smokeRequestExpiry]
  split <;> rfl

theorem smokeAgeExpiry_copies (s : State) : smokeCopies (smokeAgeExpiry s).smk = smokeCopies s.smk := by
  simp only [smokeAgeExpiry]
  split <;> rfl

theorem puffExpiry_copies (s : State) : smokeCopies (puffExpiry s).smk = smokeCopies s.smk := by
  simp only [puffExpiry]
  split <;> rfl

theorem smokeChuff_copies (s : State) : smokeCopies (smokeChuff s).smk = smokeCopies s.smk := by
  simp only [smokeChuff]
  split <;> rfl

end

end Sys2Proof.Laws
end

section
/-!
SUPPORT. The law of the lamps through the operations of the lamp driver (R175 to R180).
-/
namespace Sys2Proof.Laws

open Sys2Proof.Machine

/-! ### One output -/

/-- The law of one output, with the power state dark or not. -/
structure LampFine (dark : Bool) (o : Lamp) : Prop where
  shown : o.shown ≤ 63
  soft : o.soft ≤ 63
  darkened : dark = true → o.shown = 0 ∧ o.blinkTimer = none ∧ o.softTimer = none

/-- An output whose levels are in range, while the power state shows lamps. -/
theorem LampFine.lit {o : Lamp} (shown : o.shown ≤ 63) (soft : o.soft ≤ 63) : LampFine false o := ⟨shown, soft, nofun⟩

section
variable {r : LampRecord} {reg : BitVec 16} {o : Lamp} {dark : Bool}

theorem effectiveBrightness_le (bright : r.brightness ≤ 63) (dim : Bool) : effectiveBrightness r dim ≤ 63 := by
  rw [effectiveBrightness]
  split <;> omega

theorem flickerLevel_le (e : Nat) (reg : BitVec 16) : flickerLevel e reg ≤ e := by
  have share : 32 + reg.toNat % 32 ≤ 64 := by omega
  calc e * (32 + reg.toNat % 32) / 64 ≤ e * 64 / 64 := Nat.div_le_div_right (Nat.mul_le_mul_left e share)
    _ = e := Nat.mul_div_cancel e (by decide)

theorem lampLevel_le (bright : r.brightness ≤ 63) (soft : o.soft ≤ 63) : lampLevel r reg o ≤ 63 := by
  have bound := effectiveBrightness_le bright o.dim
  have flickers := flickerLevel_le (effectiveBrightness r o.dim) reg
  simp only [lampLevel]
  split
  · exact soft
  all_goals split <;> omega

theorem lampAim_le (bright : r.brightness ≤ 63) (o : Lamp) : lampAim r o ≤ 63 := by
  have bound := effectiveBrightness_le bright o.dim
  rw [lampAim]
  split <;> omega

theorem softMoved_le {level aim : Nat} (level63 : level ≤ 63) (aim63 : aim ≤ 63) : softMoved level aim ≤ 63 := by
  simp only [softMoved]
  (repeat' split) <;> omega

theorem softTimed_soft (r : LampRecord) (o : Lamp) : (softTimed r o).soft = o.soft := by
  simp only [softTimed]
  (repeat' split) <;> rfl

/-- An output shown again. -/
theorem LampFine.shows (bright : r.brightness ≤ 63) (soft : o.soft ≤ 63) : LampFine false (lampShow r reg o) :=
  .lit (lampLevel_le bright soft) soft

theorem lampOff_soft (r : LampRecord) (o : Lamp) : (lampOff r o).soft = o.soft := by
  simp only [lampOff]
  split
  · exact softTimed_soft r _
  · rfl

theorem lampRedim_soft (r : LampRecord) (d : LampDemand) (o : Lamp) : (lampRedim r d o).soft = o.soft := by
  simp only [lampRedim]
  split
  · exact softTimed_soft r _
  · rfl

theorem LampFine.enters (h : LampFine dark o) (r : LampRecord) (d : LampDemand) : (lampEnter r d o).soft ≤ 63 := by
  simp only [lampEnter]
  split
  · exact h.soft
  · exact h.soft
  · exact h.soft
  · rw [softTimed_soft]
    dsimp only
    split
    · exact h.soft
    · exact h.shown

theorem LampFine.takes (h : LampFine dark o) (bright : r.brightness ≤ 63) (d : Option LampDemand) :
    LampFine false (lampTake r reg d o) := by
  refine .shows bright ?_
  split
  · exact (lampOff_soft r o).trans_le h.soft
  · split
    · exact (lampRedim_soft r _ o).trans_le h.soft
    · exact h.enters r _

theorem LampFine.keeps (h : LampFine true o) (d : Option LampDemand) : LampFine true (lampKeep d o) := by
  cases d <;> exact ⟨h.shown, h.soft, h.darkened⟩

theorem LampFine.out (o : Lamp) : LampFine dark (lampDarkened o) := ⟨Nat.zero_le _, Nat.zero_le _, fun _ => ⟨rfl, rfl, rfl⟩⟩

theorem LampFine.restores (bright : r.brightness ≤ 63) (o : Lamp) : LampFine false (lampRestored r reg o) := by
  have darkened : LampFine false { lampDarkened o with on := false } := .lit (Nat.zero_le _) (Nat.zero_le _)
  simp only [lampRestored]
  split
  · exact darkened.takes bright _
  · exact .out o

theorem LampFine.rerecords (h : LampFine dark o) (bright : r.brightness ≤ 63) : LampFine false (lampRerecorded r reg o) := by
  refine .shows bright ?_
  split
  · exact (softTimed_soft r o).trans_le h.soft
  · exact h.soft

theorem LampFine.flickers (h : LampFine false o) (bright : r.brightness ≤ 63) : LampFine false (lampFlickered r reg o) := by
  simp only [lampFlickered]
  split
  · exact .shows bright h.soft
  · exact h

theorem LampFine.softens (h : LampFine dark o) (bright : r.brightness ≤ 63) : LampFine false (lampSoftened r reg o) :=
  .shows bright ((softTimed_soft r _).trans_le (softMoved_le h.soft (lampAim_le bright o)))

end

/-! ### All outputs -/

/-- The law of the outputs. -/
structure LampsLaw (l : Lmp) : Prop where
  size : l.outputs.length = 8
  fine : ∀ o ∈ l.outputs, LampFine (lampsDark l.power) o

theorem lampSafe_iff (s : State) : LampSafe s ↔ LampsLaw s.lmp :=
  ⟨fun ⟨size, fine⟩ => ⟨size, fun o ho => let ⟨shown, soft, dark⟩ := fine o ho; ⟨shown, soft, dark⟩⟩,
    fun ⟨size, fine⟩ => ⟨size, fun o ho => ⟨(fine o ho).shown, (fine o ho).soft, (fine o ho).darkened⟩⟩⟩

/-- The active lamp records keep to their range of brightness. -/
def LampTable (s : State) : Prop := ∀ n, (s.lampRecord n).brightness ≤ 63

/-- Valid LAMPS content: no record beyond 63; beyond the table's records a byte reads as 0 (R50). -/
theorem lampRecordAt_le {b : List Byte} (size : b.length ≤ 32) (valid : lampsOffence b = none) (n : Nat) :
    (lampRecordAt b n).brightness ≤ 63 := by
  rcases Nat.lt_or_ge n 8 with low | high
  · have sound := List.find?_eq_none.mp valid n (List.mem_range.mpr low)
    simp only [Bool.or_eq_true, decide_eq_true_eq, not_or] at sound
    exact Nat.not_lt.mp sound.1.1
  · have beyond : b.length ≤ 4 * n := by omega
    simp [lampRecordAt, byteAt, beyond]

theorem ActiveSafe.lampTable {s : State} (active : ActiveSafe s) : LampTable s := by
  obtain ⟨size, valid⟩ := active .lamps (by decide)
  have sound : lampsOffence (tableGet s.tbs.active .lamps) = none := by simpa [contentValid, commitOffence] using valid
  exact lampRecordAt_le size.le sound

section
variable {l : Lmp} {n : Nat} {f : Nat → Lamp → Lamp}

theorem LampsLaw.at (h : LampsLaw l) (n : Nat) : LampFine (lampsDark l.power) (lampAt l n) := by
  rcases Nat.lt_or_ge n l.outputs.length with room | past
  · have is : lampAt l n = l.outputs[n] := by simp [lampAt, List.getD_eq_getElem?_getD, room]
    exact is ▸ h.fine _ (List.getElem_mem room)
  · have is : lampAt l n = lampReset := List.getD_eq_default _ _ past
    exact is ▸ ⟨Nat.zero_le _, Nat.zero_le _, fun _ => ⟨rfl, rfl, rfl⟩⟩

theorem LampsLaw.set (h : LampsLaw l) (n : Nat) {o : Lamp} (fine : LampFine (lampsDark l.power) o) :
    LampsLaw { l with outputs := setAt l.outputs n o } where
  size := (List.length_set ..).trans h.size
  fine := fun p hp => by
    rcases List.mem_or_eq_of_mem_set hp with old | rfl
    · exact h.fine p old
    · exact fine

theorem mapLamps_length (f : Nat → Lamp → Lamp) (n : Nat) (outputs : List Lamp) :
    (mapLamps f n outputs).length = outputs.length := by
  induction outputs generalizing n with
  | nil => rfl
  | cons o rest ih => exact congrArg (· + 1) (ih (n + 1))

theorem mapLamps_forall {P : Lamp → Prop} {outputs : List Lamp} (each : ∀ n, ∀ o ∈ outputs, P (f n o)) (n : Nat) :
    ∀ o ∈ mapLamps f n outputs, P o := by
  induction outputs generalizing n with
  | nil => exact nofun
  | cons o rest ih =>
    obtain ⟨first, others⟩ : (∀ n, P (f n o)) ∧ ∀ n, ∀ o ∈ rest, P (f n o) :=
      ⟨fun n => each n o List.mem_cons_self, fun n p hp => each n p (List.mem_cons_of_mem o hp)⟩
    exact List.forall_mem_cons.mpr ⟨first n, ih others (n + 1)⟩

/-- Every output worked out again. -/
theorem LampsLaw.each (h : LampsLaw l) {m : Lmp} (outputs : m.outputs = mapLamps f 0 l.outputs)
    (fine : ∀ n, ∀ o ∈ l.outputs, LampFine (lampsDark m.power) (f n o)) : LampsLaw m where
  size := by rw [outputs, mapLamps_length, h.size]
  fine := outputs ▸ mapLamps_forall fine 0

end

/-! ### The driver's events -/

section
variable {s : State}

theorem LampsLaw.demanded (h : LampsLaw s.lmp) (table : LampTable s) (n : Nat) (d : Option LampDemand) :
    LampsLaw (lampDemanded s n d).lmp := by
  refine h.set n ?_
  have now := h.at n
  cases dark : lampsDark s.lmp.power
  · exact now.takes (table n) d
  · exact LampFine.keeps (dark ▸ now) d

theorem LampsLaw.powered (h : LampsLaw s.lmp) (table : LampTable s) (p : PowerState) : LampsLaw (lampsPower s p).lmp := by
  simp only [lampsPower]
  split
  · refine ⟨(List.length_map ..).trans h.size, fun o ho => ?_⟩
    obtain ⟨was, -, rfl⟩ := List.mem_map.mp ho
    exact .out was
  next shows =>
    have shows : lampsDark p = false := Bool.eq_false_of_not_eq_true shows
    split
    · exact h.each rfl fun n o _ => shows ▸ .restores (table n) o
    next lit =>
      have lit : lampsDark s.lmp.power = false := Bool.eq_false_of_not_eq_true lit
      exact ⟨h.size, fun o ho => shows ▸ lit ▸ h.fine o ho⟩

theorem LampsLaw.installed (h : LampsLaw s.lmp) (table : LampTable s) : LampsLaw (lampsInstalled s).lmp := by
  simp only [lampsInstalled]
  split
  · exact h
  next lit =>
    have lit : lampsDark s.lmp.power = false := Bool.eq_false_of_not_eq_true lit
    exact h.each rfl fun n o ho => lit ▸ (h.fine o ho).rerecords (table n)

theorem LampsLaw.flickered (h : LampsLaw s.lmp) (table : LampTable s) : LampsLaw (flickerStep s).lmp := by
  simp only [flickerStep]
  split
  · exact ⟨h.size, h.fine⟩
  next lit =>
    have lit : lampsDark s.lmp.power = false := Bool.eq_false_of_not_eq_true lit
    exact h.each rfl fun n o ho => lit ▸ LampFine.flickers (lit ▸ h.fine o ho) (table n)

/-- A timer of an output runs only while the power state shows lamps. -/
theorem LampsLaw.lit_of_timer (h : LampsLaw s.lmp) {n : Nat}
    (runs : (lampAt s.lmp n).blinkTimer.isSome = true ∨ (lampAt s.lmp n).softTimer.isSome = true) :
    lampsDark s.lmp.power = false := by
  refine Bool.eq_false_of_not_eq_true fun dark => ?_
  obtain ⟨-, blink, soft⟩ := (h.at n).darkened dark
  simp [blink, soft] at runs

theorem LampsLaw.blinked (h : LampsLaw s.lmp) (table : LampTable s) (n : Nat) : LampsLaw (blinkExpiry s n).lmp := by
  simp only [blinkExpiry]
  split
  next runs => exact h.set n (h.lit_of_timer (.inl runs) ▸ .shows (table n) (h.at n).soft)
  · exact h

theorem LampsLaw.softened (h : LampsLaw s.lmp) (table : LampTable s) (n : Nat) : LampsLaw (softExpiry s n).lmp := by
  simp only [softExpiry]
  split
  next runs => exact h.set n (h.lit_of_timer (.inr runs) ▸ (h.at n).softens (table n))
  · exact h

end

end Sys2Proof.Laws
end

section
/-!
SUPPORT. What moves the outputs: the operations of the sound engine, the smoke unit, the lamps and the sample memory, and what
PPM hands them. Every law of the outputs is kept by each of them (R145 to R189).
-/
namespace Sys2Proof.Laws

open Sys2Proof.Machine

/-! ### What the laws see -/

/-- What the laws of the outputs see of PPM: what it publishes. -/
def published (p : Ppm) : PowerState × Nat × Nat × Nat := (p.power, p.dcap, p.hmax, p.soundCap)

/-- What the laws of the outputs see of a state. -/
def outputView (s : State) :
    Snd × Smk × Lmp × (PowerState × Nat × Nat × Nat) × List Host.Cell × List Byte × List Byte × Nat :=
  (s.snd, s.smk, s.lmp, published s.ppm, s.samples, s.tbs.active.cues, s.tbs.active.lamps, s.trc.dcap)

/-- An operation of the part, as its outputs see it. -/
inductive OutputOp (s : State) : State → Prop
  | quiet {t : State} (same : outputView t = outputView s) : OutputOp s t
  | lamp (n : Nat) (d : Option LampDemand) : OutputOp s (lampDemanded s n d)
  | enabled (on : Bool) : OutputOp s (smokeEnable s on)
  | muted (on : Bool) : OutputOp s (soundMute s on)
  | triggered (c : Nat) : OutputOp s (soundTrigger s c)
  | released (c : Nat) : OutputOp s (soundRelease s c)
  | announced {p : Ppm} (caps : (published p).2 = (published s.ppm).2) : OutputOp s (announce (s.setPpm p) p.power)
  | dutyCapped (c : Nat) : OutputOp s (tractionCap (s.setPpm { s.ppm with dcap := c }) c)
  | heaterCapped (c : Nat) : OutputOp s (smokeCap (s.setPpm { s.ppm with hmax := c }) c)
  | soundCapped (c : Nat) : OutputOp s (soundCapTaken (s.setPpm { s.ppm with soundCap := c }) c)
  | measured (tm : Nat) : OutputOp s (smokeResult s tm)
  | requested : OutputOp s (smokeRequestExpiry s)
  | staled : OutputOp s (smokeAgeExpiry s)
  | puffEnded : OutputOp s (puffExpiry s)
  | chuffed (index : Nat) : OutputOp s (smokeChuff (soundChuff s index))
  | sampled (inTime : BitVec 6) : OutputOp s (outputSampled s inTime)
  | flickered : OutputOp s (flickerStep s)
  | blinked (n : Nat) : OutputOp s (blinkExpiry s n)
  | softened (n : Nat) : OutputOp s (softExpiry s n)
  | writing {w : SampleWrite} (fits : writeFits w) : OutputOp s (setWriteState s w)
  | erased : OutputOp s (eraseDone s)
  | programmed : OutputOp s (programDone s)
  | cleared : OutputOp s (clearFaultFlags s)
  | cuesPut (b : List Byte) : OutputOp s (cuesInstalled (activePut s .cues b))
  | lampsPut {b : List Byte} (size : b.length ≤ 32) (sound : lampsOffence b = none) :
      OutputOp s (lampsInstalled (activePut s .lamps b))

/-- What any number of them reach. -/
def OutputReaches : State → State → Prop := Relation.ReflTransGen OutputOp

/-- A law that each operation keeps is kept by all that they reach. -/
theorem outputs_keep {P : State → Prop} {s t : State} (op : ∀ {u v}, OutputOp u v → P u → P v) (reaches : OutputReaches s t)
    (h : P s) : P t := by
  induction reaches with
  | refl => exact h
  | tail _ last ih => exact op last ih

/-! ### The pool and the resume stack (R159) -/

section
variable {s t : State}

theorem poolSound_op (op : OutputOp s t) (h : PoolSound s) : PoolSound t := by
  cases op with
  | quiet same =>
    simp only [outputView, Prod.mk.injEq] at same
    obtain ⟨snd, -, -, -, -, cues, -⟩ := same
    exact h.congr (by rw [snd]) (by rw [snd]) cues
  | muted on => exact PoolSound.engineWork (h.congr rfl rfl rfl)
  | triggered c => exact h.triggered c
  | released c => exact h.released c
  | announced caps =>
    simp only [announce]
    rename_i p
    have told : PoolSound (soundPower (smokePower (tractionPower (s.setPpm p) p.power) p.power) p.power) :=
      PoolSound.engineWork (h.congr (by simp) (by simp) (by simp))
    exact told.congr (by simp) (by simp) (by simp)
  | chuffed index => exact (h.chuffed index).congr (by simp) (by simp) (by simp)
  | sampled inTime => exact h.sampled inTime
  | erased =>
    simp only [eraseDone]
    split <;> exact h
  | programmed =>
    simp only [programDone]
    split <;> exact h
  | cuesPut b => exact h.cuesInstalled rfl
  | lampsPut => exact h.congr (by simp) (by simp) (by simp; rfl)
  | soundCapped | writing | cleared => exact h.congr rfl rfl rfl
  | lamp | enabled | dutyCapped | heaterCapped | measured | requested | staled | puffEnded | flickered | blinked | softened =>
    exact h.congr (by simp) (by simp) (by simp)

/-! ### The engine state (R152) -/

theorem EngineSound.congr (h : EngineSound s) (snd : t.snd = s.snd) : EngineSound t := by
  rwa [EngineSound, snd]

theorem engineSound_op (op : OutputOp s t) (h : EngineSound s) : EngineSound t := by
  cases op with
  | quiet same => exact h.congr (congrArg Prod.fst same)
  | muted on => exact h.muted on
  | triggered c => exact h.triggered c
  | released c => exact h.released c
  | announced caps =>
    simp only [announce]
    rename_i p
    have told : EngineSound (soundPower (smokePower (tractionPower (s.setPpm p) p.power) p.power) p.power) :=
      EngineSound.powered (h.congr (by simp)) p.power
    exact told.congr (by simp)
  | chuffed index => exact (h.chuffed index).congr (by simp)
  | sampled inTime => exact h.sampled inTime
  | erased =>
    simp only [eraseDone]
    split <;> exact h
  | programmed =>
    simp only [programDone]
    split <;> exact h
  | cuesPut b => exact EngineSound.cuesInstalled (h.congr rfl)
  | lampsPut => exact h.congr (by simp)
  | soundCapped | writing | cleared => exact h
  | lamp | enabled | dutyCapped | heaterCapped | measured | requested | staled | puffEnded | flickered | blinked | softened =>
    exact h.congr (by simp)

end

/-! ### What the operations leave of the cap, the power state and the write state -/

/-- What SND holds beside its voices and its engine state. -/
def soundHeld (n : Snd) : Nat × PowerState × SampleWrite := (n.cap, n.power, n.writeState)

section
variable {s t : State}

theorem soundHeld_of_face (face : soundFace t.snd = soundFace s.snd) : soundHeld t.snd = soundHeld s.snd := by
  simp only [soundFace, Prod.mk.injEq] at face
  obtain ⟨-, -, power, cap, writes⟩ := face
  rw [soundHeld, power, cap, writes, soundHeld]

theorem engineWork_held (s : State) : soundHeld (engineWork s).snd = soundHeld s.snd := by
  simp only [engineWork]
  (repeat' split) <;> rfl

theorem cuesInstalled_held (s : State) : soundHeld (cuesInstalled s).snd = soundHeld s.snd := by
  simp only [cuesInstalled]
  split <;> rfl

theorem announce_held (s : State) (p : PowerState) :
    soundHeld (announce s p).snd = (s.snd.cap, p, s.snd.writeState) := by
  have told : soundHeld (announce s p).snd = soundHeld (soundPower (smokePower (tractionPower s p) p) p).snd := by simp [announce]
  have kept : soundHeld (soundPower (smokePower (tractionPower s p) p) p).snd = _ := engineWork_held _
  rw [told, kept]
  simp [soundHeld]

/-! ### The sample memory (R145 to R148) -/

theorem SampleSound.held (h : SampleSound s) (samples : t.samples = s.samples) (snd : soundHeld t.snd = soundHeld s.snd) :
    SampleSound t := by
  simp only [soundHeld, Prod.mk.injEq] at snd
  obtain ⟨-, -, writes⟩ := snd
  exact h.congr samples writes

theorem sampleSound_op (op : OutputOp s t) (h : SampleSound s) : SampleSound t := by
  cases op with
  | quiet same =>
    simp only [outputView, Prod.mk.injEq] at same
    obtain ⟨snd, -, -, -, samples, -⟩ := same
    exact h.congr samples (by rw [snd])
  | muted on => exact h.held (by simp) (engineWork_held _)
  | triggered c => exact h.held (by simp) (soundHeld_of_face (soundTrigger_soundFace s c))
  | released c => exact h.held (by simp) (soundHeld_of_face (soundRelease_soundFace s c))
  | announced caps =>
    obtain ⟨-, writes⟩ := Prod.ext_iff.mp (congrArg Prod.snd (announce_held (s.setPpm _) _))
    exact h.congr (by simp [announce]) writes
  | chuffed index =>
    have sound : SampleSound (soundChuff s index) := h.held (by simp) (soundHeld_of_face (soundChuff_soundFace s index))
    exact sound.congr (by simp) (by simp)
  | sampled inTime => exact h.held (by simp) (soundHeld_of_face (outputSampled_soundFace s inTime))
  | erased => exact h.erased
  | programmed => exact h.programmed
  | writing fits => exact h.writing fits
  | cuesPut b => exact h.held (by simp) (cuesInstalled_held _)
  | lampsPut => exact h.congr (by simp) (by simp)
  | soundCapped | cleared => exact h.congr rfl rfl
  | lamp | enabled | dutyCapped | heaterCapped | measured | requested | staled | puffEnded | flickered | blinked | softened =>
    exact h.congr (by simp) (by simp)

/-! ### The smoke unit (R167 to R173) -/

theorem smokeLaw_op (op : OutputOp s t) (h : SmokeLaw s.smk) : SmokeLaw t.smk := by
  have kept {u : State} (smk : u.smk = s.smk) : SmokeLaw u.smk := smk ▸ h
  cases op with
  | quiet same => exact kept (congrArg (fun view => view.2.1) same)
  | enabled on => exact h.enabled on
  | announced caps =>
    rename_i p
    have told : (announce (s.setPpm p) p.power).smk = (smokePower (tractionPower (s.setPpm p) p.power) p.power).smk := by
      simp [announce]
    rw [told]
    exact SmokeLaw.powered (kept (by simp)) p.power
  | heaterCapped c => exact SmokeLaw.capped (s := s.setPpm { s.ppm with hmax := c }) h c
  | measured tm => exact h.measured tm
  | requested => exact h.requested
  | staled => exact h.staled
  | puffEnded => exact h.puffEnded
  | chuffed index => exact SmokeLaw.puffed (kept (by simp))
  | cleared => exact h.congr rfl rfl rfl id rfl rfl
  | soundCapped | writing => exact h
  | lamp | muted | triggered | released | dutyCapped | sampled | flickered | blinked | softened | erased | programmed | cuesPut
      | lampsPut => exact kept (by simp)

end

/-! ### The copies of what PPM publishes (R57, R162, R171, R185, R189) -/

/-- What its receivers hold of what PPM publishes. -/
def capCopies (s : State) : Nat × Nat × Nat × PowerState × PowerState × PowerState :=
  (s.trc.dcap, s.smk.hmax, s.snd.cap, s.smk.power, s.snd.power, s.lmp.power)

/-- What PPM publishes, as its receivers are to hold it. -/
def capsPublished (p : Ppm) : Nat × Nat × Nat × PowerState × PowerState × PowerState :=
  (p.dcap, p.hmax, p.soundCap, p.power, p.power, p.power)

/-- The receivers hold what PPM publishes, and the heater keeps to its law. -/
structure HeldLaw (s : State) : Prop where
  copies : capCopies s = capsPublished s.ppm
  heater : HeaterLaw s.smk

/-- The caps come from a power state that gives them. -/
def CapsEarned (p : Ppm) : Prop :=
  (0 < p.hmax → p.power = .normal ∧ p.shed < 2) ∧ (0 < p.dcap → p.power = .normal ∨ p.power = .coast)

theorem heaterSafe_capsSafe_iff (s : State) : HeaterSafe s ∧ CapsSafe s ↔ HeldLaw s ∧ CapsEarned s.ppm := by
  constructor
  · rintro ⟨⟨limit, hot⟩, dcap, hmax, cap, smk, snd, lmp, heats, drives⟩
    exact ⟨⟨by simp only [capCopies, capsPublished, dcap, hmax, cap, smk, snd, lmp], limit, fun on => (hot on).1⟩, heats, drives⟩
  · rintro ⟨⟨copies, limit, hot⟩, heats, drives⟩
    simp only [capCopies, capsPublished, Prod.mk.injEq] at copies
    obtain ⟨dcap, hmax, cap, smk, snd, lmp⟩ := copies
    exact ⟨⟨limit, fun on => ⟨hot on, heats (hmax ▸ on.trans_le limit)⟩⟩, dcap, hmax, cap, smk, snd, lmp, heats, drives⟩

section
variable {s t : State}

/-- An operation that PPM has no part in. -/
theorem HeldLaw.congr (h : HeldLaw s) (ppm : t.ppm = s.ppm) (dcap : t.trc.dcap = s.trc.dcap)
    (smk : smokeCopies t.smk = smokeCopies s.smk) (snd : soundHeld t.snd = soundHeld s.snd) (lmp : t.lmp.power = s.lmp.power)
    (heater : HeaterLaw t.smk) : HeldLaw t where
  copies := by
    have copies := h.copies
    simp only [smokeCopies, soundHeld, Prod.mk.injEq] at smk snd
    obtain ⟨hmax, smkPower⟩ := smk
    obtain ⟨cap, sndPower, -⟩ := snd
    rw [ppm, ← copies, capCopies, capCopies, dcap, hmax, smkPower, cap, sndPower, lmp]
  heater := heater

/-- An operation at SND alone. -/
theorem HeldLaw.sound (h : HeldLaw s) (ppm : t.ppm = s.ppm) (dcap : t.trc.dcap = s.trc.dcap) (smk : t.smk = s.smk)
    (lmp : t.lmp = s.lmp) (snd : soundHeld t.snd = soundHeld s.snd) : HeldLaw t :=
  h.congr ppm dcap (by rw [smk]) snd (by rw [lmp]) (smk ▸ h.heater)

/-- An operation at SMK alone. -/
theorem HeldLaw.smoke (h : HeldLaw s) (ppm : t.ppm = s.ppm) (dcap : t.trc.dcap = s.trc.dcap) (snd : t.snd = s.snd)
    (lmp : t.lmp = s.lmp) (smk : smokeCopies t.smk = smokeCopies s.smk) (heater : HeaterLaw t.smk) : HeldLaw t :=
  h.congr ppm dcap smk (by rw [snd]) (by rw [lmp]) heater

/-- An operation at LMP alone. -/
theorem HeldLaw.lamps (h : HeldLaw s) (ppm : t.ppm = s.ppm) (dcap : t.trc.dcap = s.trc.dcap) (snd : t.snd = s.snd)
    (smk : t.smk = s.smk) (lmp : t.lmp.power = s.lmp.power) : HeldLaw t :=
  h.congr ppm dcap (by rw [smk]) (by rw [snd]) lmp (smk ▸ h.heater)

theorem lampsPower_power (s : State) (p : PowerState) : (lampsPower s p).lmp.power = p := by
  simp only [lampsPower]
  (repeat' split) <;> rfl

theorem lampsInstalled_power (s : State) : (lampsInstalled s).lmp.power = s.lmp.power := by
  simp only [lampsInstalled]
  split <;> rfl

theorem flickerStep_power (s : State) : (flickerStep s).lmp.power = s.lmp.power := by
  simp only [flickerStep]
  split <;> rfl

theorem blinkExpiry_power (s : State) (n : Nat) : (blinkExpiry s n).lmp.power = s.lmp.power := by
  simp only [blinkExpiry]
  split <;> rfl

theorem softExpiry_power (s : State) (n : Nat) : (softExpiry s n).lmp.power = s.lmp.power := by
  simp only [softExpiry]
  split <;> rfl

/-- An announcement reaches TRC, SMK, SND and LMP, and leaves the caps. -/
theorem HeldLaw.announced (h : HeldLaw s) {p : Ppm} (caps : (Laws.published p).2 = (Laws.published s.ppm).2) :
    HeldLaw (announce (s.setPpm p) p.power) where
  copies := by
    have copies := h.copies
    simp only [capCopies, capsPublished, Laws.published, Prod.mk.injEq] at copies caps
    obtain ⟨dcap, hmax, cap, -⟩ := copies
    obtain ⟨dcapKept, hmaxKept, capKept⟩ := caps
    have sound := announce_held (s.setPpm p) p.power
    simp only [soundHeld, setPpm_snd, Prod.mk.injEq] at sound
    obtain ⟨sndCap, sndPower, -⟩ := sound
    have ppm : (announce (s.setPpm p) p.power).ppm = p := by simp [announce]
    have duty : (announce (s.setPpm p) p.power).trc.dcap = s.trc.dcap := by simp [announce]
    have heat : (announce (s.setPpm p) p.power).smk.hmax = s.smk.hmax := by simp [announce]
    have smoke : (announce (s.setPpm p) p.power).smk.power = p.power := by simp [announce, smokePower_power]
    have lamps : (announce (s.setPpm p) p.power).lmp.power = p.power := lampsPower_power _ _
    rw [ppm, capCopies, capsPublished, duty, heat, smoke, lamps, sndCap, sndPower, dcap, hmax, cap, dcapKept, hmaxKept, capKept]
  heater := by
    have told : (announce (s.setPpm p) p.power).smk = (smokePower (tractionPower (s.setPpm p) p.power) p.power).smk := by
      simp [announce]
    rw [told]
    exact HeaterLaw.powered (by simpa using h.heater) p.power

theorem heldLaw_op (op : OutputOp s t) (h : HeldLaw s) : HeldLaw t := by
  obtain ⟨copies, heater⟩ := h
  have law : HeldLaw s := ⟨copies, heater⟩
  cases op with
  | quiet same =>
    simp only [outputView, Laws.published, Prod.mk.injEq] at same
    obtain ⟨snd, smk, lmp, ⟨power, dcap, hmax, soundCap⟩, -, -, -, duty⟩ := same
    refine ⟨?_, smk ▸ heater⟩
    rw [capsPublished, power, dcap, hmax, soundCap, capCopies, snd, smk, lmp, duty]
    exact copies
  | announced caps => exact law.announced caps
  | dutyCapped c =>
    simp only [capCopies, capsPublished, Prod.mk.injEq] at copies
    obtain ⟨-, duty⟩ := tractionCap_kept (s.setPpm { s.ppm with dcap := c }) c
    refine ⟨?_, by simpa using heater⟩
    simp [capCopies, capsPublished, duty, copies]
  | heaterCapped c =>
    simp only [capCopies, capsPublished, Prod.mk.injEq] at copies
    refine ⟨?_, HeaterLaw.capped (s := s.setPpm { s.ppm with hmax := c }) heater c⟩
    simp [capCopies, capsPublished, smokeCap_power, copies]
  | soundCapped c =>
    simp only [capCopies, capsPublished, Prod.mk.injEq] at copies
    refine ⟨?_, heater⟩
    simp [capCopies, capsPublished, soundCapTaken, copies]
  | enabled on => exact law.smoke (by simp) (by simp) (by simp) (by simp) (smokeEnable_copies s on) (heater.enabled on)
  | measured tm => exact law.smoke (by simp) (by simp) (by simp) (by simp) (smokeResult_copies s tm) (heater.measured tm)
  | requested => exact law.smoke (by simp) (by simp) (by simp) (by simp) (smokeRequestExpiry_copies s) heater.requested
  | staled => exact law.smoke (by simp) (by simp) (by simp) (by simp) (smokeAgeExpiry_copies s) heater.staled
  | puffEnded => exact law.smoke (by simp) (by simp) (by simp) (by simp) (puffExpiry_copies s) heater.puffEnded
  | chuffed index =>
    have sound : HeldLaw (soundChuff s index) :=
      law.sound (by simp) (by simp) (by simp) (by simp) (soundHeld_of_face (soundChuff_soundFace s index))
    exact sound.smoke (by simp) (by simp) (by simp) (by simp) (smokeChuff_copies _) (HeaterLaw.puffed sound.heater)
  | muted on => exact law.sound (by simp) (by simp) (by simp) (by simp) (engineWork_held _)
  | triggered c => exact law.sound (by simp) (by simp) (by simp) (by simp) (soundHeld_of_face (soundTrigger_soundFace s c))
  | released c => exact law.sound (by simp) (by simp) (by simp) (by simp) (soundHeld_of_face (soundRelease_soundFace s c))
  | sampled inTime => exact law.sound (by simp) (by simp) (by simp) (by simp) (soundHeld_of_face (outputSampled_soundFace s inTime))
  | cuesPut b => exact law.sound (by simp) (by simp) (by simp) (by simp) (cuesInstalled_held _)
  | writing | cleared => exact ⟨copies, heater⟩
  | erased =>
    simp only [eraseDone]
    split <;> exact ⟨copies, heater⟩
  | programmed =>
    simp only [programDone]
    split <;> exact ⟨copies, heater⟩
  | lamp => exact law.lamps (by simp) (by simp) (by simp) (by simp) (by simp)
  | flickered => exact law.lamps (by simp) (by simp) (by simp) (by simp) (flickerStep_power s)
  | blinked n => exact law.lamps (by simp) (by simp) (by simp) (by simp) (blinkExpiry_power s n)
  | softened n => exact law.lamps (by simp) (by simp) (by simp) (by simp) (softExpiry_power s n)
  | lampsPut => exact law.lamps (by simp) (by simp) (by simp) (by simp) (lampsInstalled_power _)

end

/-! ### The lamps (R175 to R180) -/

/-- The law of the lamps, and of the records in force. -/
structure LampLaw (s : State) : Prop where
  table : LampTable s
  outputs : LampsLaw s.lmp

section
variable {s t : State}

theorem LampTable.congr (h : LampTable s) (lamps : t.tbs.active.lamps = s.tbs.active.lamps) : LampTable t := by
  intro n
  rw [State.lampRecord, lamps]
  exact h n

theorem LampLaw.congr (h : LampLaw s) (lmp : t.lmp = s.lmp) (lamps : t.tbs.active.lamps = s.tbs.active.lamps) : LampLaw t :=
  ⟨h.table.congr lamps, lmp ▸ h.outputs⟩

theorem lampLaw_op (op : OutputOp s t) (h : LampLaw s) : LampLaw t := by
  obtain ⟨table, outputs⟩ := h
  have law : LampLaw s := ⟨table, outputs⟩
  cases op with
  | quiet same =>
    simp only [outputView, Prod.mk.injEq] at same
    obtain ⟨-, -, lmp, -, -, -, lamps, -⟩ := same
    exact law.congr lmp lamps
  | lamp n d => exact ⟨table.congr (by simp), outputs.demanded table n d⟩
  | flickered => exact ⟨table.congr (by simp), outputs.flickered table⟩
  | blinked n => exact ⟨table.congr (by simp), outputs.blinked table n⟩
  | softened n => exact ⟨table.congr (by simp), outputs.softened table n⟩
  | announced caps =>
    rename_i p
    have told : LampLaw (soundPower (smokePower (tractionPower (s.setPpm p) p.power) p.power) p.power) :=
      law.congr (by simp) (by simp)
    exact ⟨table.congr (by simp [announce]), told.outputs.powered told.table p.power⟩
  | @lampsPut b size sound =>
    have put : LampTable (activePut s .lamps b) := lampRecordAt_le size sound
    exact ⟨put.congr (by simp), LampsLaw.installed (s := activePut s .lamps b) outputs put⟩
  | writing | cleared | soundCapped => exact ⟨table, outputs⟩
  | cuesPut b => exact law.congr (by simp) (by simp; rfl)
  | enabled | muted | triggered | released | dutyCapped | heaterCapped | measured | requested | staled | puffEnded | chuffed
      | sampled | erased | programmed => exact law.congr (by simp) (by simp)

end

end Sys2Proof.Laws
end

section
/-!
SUPPORT. Every operation of the part as its outputs see it, one lemma an operation: it reaches its next state by the operations of
the outputs alone, and an event at PPM ends with caps that its power state gives.
-/
namespace Sys2Proof.Laws

open Sys2Proof.Machine

theorem outputs_quiet {s t : State} (same : outputView t = outputView s) : OutputReaches s t := .single (.quiet same)

theorem outputs_after {s u t : State} (h : OutputReaches u t) (same : outputView u = outputView s) : OutputReaches s t :=
  (outputs_quiet same).trans h

section
variable (s : State)

/-! ### FNU's deliveries (R61 to R65) -/

theorem outputs_deliverEntry (new : Outputs) (e : MapEntry) (on : Bool) : OutputReaches s (deliverEntry new e on s) := by
  rcases action : e.action with _ | (⟨n, d⟩ | c | _ | _ | _ | _) <;> simp only [deliverEntry, action]
  case none => exact .refl
  case some.cue =>
    split
    · exact .single (.triggered c)
    · exact .single (.released c)
  case some.lamp =>
    simp only [deliverLamp]
    split
    · exact .refl
    · exact outputs_after (.single (.lamp n _)) rfl
  case some.smoke =>
    simp only [deliverSmoke]
    split
    · exact .refl
    · exact outputs_after (.single (.enabled _)) rfl
  case some.mute =>
    simp only [deliverMute]
    split
    · exact .refl
    · exact outputs_after (.single (.muted _)) rfl
  case some.shunt =>
    simp only [deliverShunt]
    split
    · exact .refl
    · exact outputs_quiet (by simp [outputView, setDelivered])
  case some.momentumOff =>
    simp only [deliverMomentum]
    split
    · exact .refl
    · exact outputs_quiet (by simp [outputView, setDelivered])

theorem outputs_setFnu {t : State} (f : Fnu) (h : OutputReaches s t) : OutputReaches s (t.setFnu f) := h.trans (outputs_quiet rfl)

theorem outputs_delivered {t : State} (new : Outputs) (e : MapEntry) (on : Bool) (h : OutputReaches s t) :
    OutputReaches s (deliverEntry new e on t) :=
  h.trans (outputs_deliverEntry t new e on)

theorem outputs_fnuSettle : OutputReaches s (fnuSettle s) :=
  fnuSettle_induction (fun _ f => outputs_setFnu s f) (fun new e on _ => outputs_delivered s new e on) .refl

theorem outputs_functionsHanded (group states low high : Nat) : OutputReaches s (functionsHanded s group states low high) :=
  functionsHanded_induction (fun _ f => outputs_setFnu s f) (fun new e on _ => outputs_delivered s new e on) .refl ..

theorem outputs_mapInstalled (oldMap : List Byte) : OutputReaches s (mapInstalled s oldMap) :=
  mapInstalled_induction (fun _ f => outputs_setFnu s f) (fun new e on _ => outputs_delivered s new e on) .refl oldMap

/-! ### The power states (R183, R185 to R189) -/

theorem outputs_powerEnd : OutputReaches s (powerEnd s) := by
  have duty (u : State) : OutputReaches u (publishDcap u) := by
    simp only [publishDcap]
    split
    · exact .refl
    · exact .single (.dutyCapped _)
  have heat (u : State) : OutputReaches u (publishHmax u) := by
    simp only [publishHmax]
    split
    · exact .refl
    · exact .single (.heaterCapped _)
  have sound (u : State) : OutputReaches u (publishSoundCap u) := by
    simp only [publishSoundCap]
    split
    · exact .refl
    · exact .single (.soundCapped _)
  exact (duty s).trans ((heat _).trans (sound _))

theorem outputs_publish (p : Publication) : OutputReaches s (publish s p) := outputs_quiet rfl

/-- A power state entered: PPM's own values, and the announcement. -/
theorem outputs_entered {p : Ppm} {power : PowerState} (enters : p.power = power) (caps : (published p).2 = (published s.ppm).2) :
    OutputReaches s (announce (s.setPpm p) power) :=
  enters ▸ .single (.announced caps)

theorem outputs_enterNormal : OutputReaches s (enterNormal s) := by
  simp only [enterNormal]
  split
  · refine Relation.ReflTransGen.trans ?_ (outputs_publish _ _)
    exact outputs_entered s rfl rfl
  · exact outputs_entered s rfl rfl

theorem outputs_enterCoast : OutputReaches s (enterCoast s) := by
  simp only [enterCoast]
  refine outputs_after (u := s.setMsq (queueRequest s.msq ⟨.bufferV, .ppm⟩)) ?_ rfl
  refine Relation.ReflTransGen.trans ?_ (outputs_publish _ _)
  exact outputs_entered (s.setMsq _) rfl rfl

theorem outputs_enterHold : OutputReaches s (enterHold s) := by
  simp only [enterHold]
  refine Relation.ReflTransGen.trans ?_ (outputs_publish _ _)
  exact outputs_entered s rfl rfl

theorem outputs_supplyActive (x : Supply) : OutputReaches s (supplyActive s x) := by
  simp only [supplyActive]
  split
  · exact outputs_quiet rfl
  · exact outputs_after (outputs_enterNormal _) rfl

theorem outputs_bufferActive : OutputReaches s (bufferActive s) := by
  simp only [bufferActive]
  split
  · exact outputs_after (outputs_enterCoast _) rfl
  · exact outputs_quiet rfl

theorem outputs_setSupply (x : Supply) (v : SupplyState) : OutputReaches s (setSupply s x v) := by
  cases x <;> exact outputs_quiet rfl

theorem outputs_supplyQualified (x : Supply) : OutputReaches s (supplyQualified s x) := by
  have select (u : State) : OutputReaches u (supplySelect u x) := by
    simp only [supplySelect]
    split
    · split
      · exact outputs_supplyActive u x
      · exact .refl
    · split
      · exact .refl
      · exact outputs_supplyActive u x
  exact (outputs_setSupply s x _).trans (select _)

theorem outputs_activeLost (x : Supply) : OutputReaches s (activeLost s x) := by
  simp only [activeLost]
  split
  · exact outputs_supplyActive s _
  · exact outputs_bufferActive s

theorem outputs_fastReturnRaise (x : Supply) : OutputReaches s (fastReturnRaise s x) := by
  simp only [fastReturnRaise]
  split
  · exact outputs_after (outputs_setSupply _ x _) rfl
  · exact .refl

theorem outputs_fastReturnResult (x : Supply) (code : Nat) : OutputReaches s (fastReturnResult s x code) := by
  simp only [fastReturnResult]
  split
  · exact (outputs_setSupply s x _).trans (outputs_supplyQualified _ x)
  · exact outputs_setSupply s x _

theorem outputs_bufferReading (code : Nat) : OutputReaches s (bufferReading s code) := by
  simp only [bufferReading]
  split
  · exact outputs_enterHold s
  · exact .refl

theorem outputs_currentReading (r : Nat) : OutputReaches s (currentReading s r) := by
  simp only [currentReading]
  (repeat' split) <;> exact outputs_quiet rfl

/-! ### The caps that a power state gives (R189) -/

theorem powerEnd_caps : (powerEnd s).ppm =
    { s.ppm with dcap := dcapNow s, hmax := hmaxNow s, soundCap := soundCapNow s } := by
  have duty : (publishDcap s).ppm = { s.ppm with dcap := dcapNow s } := by
    simp only [publishDcap]
    split
    next same => rw [same]
    next => simp
  have heat (u : State) : (publishHmax u).ppm = { u.ppm with hmax := hmaxNow u } := by
    simp only [publishHmax]
    split
    next same => rw [same]
    next => simp
  have sound (u : State) : (publishSoundCap u).ppm = { u.ppm with soundCap := soundCapNow u } := by
    simp only [publishSoundCap]
    split
    next same => rw [same]
    next => simp
  have heatKept : hmaxNow (publishDcap s) = hmaxNow s := by
    have limit : (publishDcap s).smkMax = s.smkMax := setting1_congr (by simp) 40
    rw [hmaxNow, duty, limit, hmaxNow]
  have soundKept : soundCapNow (publishHmax (publishDcap s)) = soundCapNow s := by
    have volume : (publishHmax (publishDcap s)).coastVol = s.coastVol := setting1_congr (by simp) 56
    rw [soundCapNow, heat, duty, volume, soundCapNow]
  rw [powerEnd, sound, heat, duty, heatKept, soundKept]

theorem powerEnd_earned : CapsEarned (powerEnd s).ppm := by
  rw [powerEnd_caps]
  refine ⟨fun hot => ?_, fun drives => ?_⟩
  · cases power : s.ppm.power <;> simp only [hmaxNow, power, lt_irrefl] at hot
    refine ⟨rfl, ?_⟩
    dsimp only
    by_contra shed
    have other : s.ppm.shed ≠ 0 ∧ s.ppm.shed ≠ 1 := by omega
    simp [other] at hot
  · cases power : s.ppm.power <;> simp only [dcapNow, power, lt_irrefl] at drives
    · exact .inl rfl
    · exact .inr rfl

end

end Sys2Proof.Laws
end

section
/-!
SUPPORT. Every event of the part, and every command: the operations of the outputs with the cam as it was and the caps earned, a tick
or an edge at CAM, or a reset.
-/
namespace Sys2Proof.Laws

open Sys2Proof.Machine

/-! ### Events -/

/-- What an event does but those at CAM and the resets: the operations of the outputs, and caps still earned if they were. -/
structure OutputEvent (s t : State) : Prop where
  reaches : OutputReaches s t
  cam : t.cam = s.cam
  earned : CapsEarned s.ppm → CapsEarned t.ppm

/-- What an event that moves no output leaves. -/
def eventView (s : State) := (outputView s, s.cam, s.ppm.shed)

theorem OutputEvent.refl (s : State) : OutputEvent s s := ⟨.refl, rfl, id⟩

theorem OutputEvent.trans {s u t : State} (first : OutputEvent s u) (second : OutputEvent u t) : OutputEvent s t :=
  ⟨first.reaches.trans second.reaches, second.cam.trans first.cam, fun h => second.earned (first.earned h)⟩

theorem events_quiet {s t : State} (same : eventView t = eventView s) : OutputEvent s t := by
  simp only [eventView, Prod.mk.injEq] at same
  obtain ⟨view, cam, shed⟩ := same
  refine ⟨outputs_quiet view, cam, fun h => ?_⟩
  simp only [outputView, published, Prod.mk.injEq] at view
  obtain ⟨-, -, -, ⟨power, dcap, hmax, -⟩, -⟩ := view
  rwa [CapsEarned, power, dcap, hmax, shed]

/-- An event that PPM and CAM have no part in. -/
theorem events_apart {s t : State} (reaches : OutputReaches s t) (cam : t.cam = s.cam) (ppm : t.ppm = s.ppm) : OutputEvent s t :=
  ⟨reaches, cam, fun h => ppm ▸ h⟩

/-- An event at PPM: it ends with the publication of the caps. -/
theorem events_powered {s u : State} (reaches : OutputReaches s u) (cam : u.cam = s.cam) : OutputEvent s (powerEnd u) :=
  ⟨reaches.trans (outputs_powerEnd u), by simp [cam], fun _ => powerEnd_earned u⟩

section
variable (s : State)

/-! ### The power path (R182 to R188) -/

theorem events_setSupply (x : Supply) (v : SupplyState) : OutputEvent s (setSupply s x v) := by
  cases x <;> exact events_quiet rfl

theorem events_presenceEvent (was : Bool) (x : Supply) : OutputEvent s (presenceEvent was x s) := by
  rcases presenceEvent_cases was x s with ⟨-, eq⟩ | ⟨-, -, eq⟩ | ⟨-, -, eq⟩ <;> rw [eq]
  · exact .refl s
  · refine events_powered ?_ (by simp)
    simp only [startQualifying]
    split
    · exact outputs_setSupply s x _
    · exact .refl
  · have absent : OutputReaches s (supplyAbsent s x) := outputs_setSupply s x _
    simp only [presenceLoss]
    split
    · exact events_powered (absent.trans ((outputs_activeLost _ x).trans (outputs_fastReturnRaise _ x))) (by simp)
    · exact events_powered absent (by simp)

theorem events_settingsInstalled : OutputEvent s (settingsInstalled s) := by
  have follows (u : State) (x : Supply) : OutputEvent u (presenceFollows u x) :=
    (events_setSupply u x _).trans (events_presenceEvent _ _ x)
  exact (follows s .track).trans (follows _ .battery)

theorem events_qualificationExpiry (x : Supply) : OutputEvent s (qualificationExpiry s x) := by
  simp only [qualificationExpiry]
  split
  · exact events_powered (outputs_supplyQualified s x) (by simp)
  · exact .refl s

theorem events_powerReading (c : Channel) (source : Source) (code : Nat) : OutputEvent s (powerReading s c source code) := by
  have fastReturn (x : Supply) : OutputEvent s (powerEnd (if source = .inject then fastReturnResult s x code else s)) := by
    split
    · exact events_powered (outputs_fastReturnResult s x code) (by simp)
    · exact events_powered .refl rfl
  cases c <;> simp only [powerReading]
  case trackV => exact fastReturn .track
  case batteryV => exact fastReturn .battery
  case bufferV => exact events_powered (outputs_bufferReading s code) (by simp)
  case supplyI => exact events_powered (outputs_currentReading s code) (by simp)
  case boardT => exact events_powered (outputs_quiet rfl) rfl
  all_goals exact .refl s

theorem events_coastExpiry : OutputEvent s (coastExpiry s) := by
  simp only [coastExpiry]
  split
  · exact events_powered (outputs_enterHold s) (by simp)
  · exact .refl s

theorem events_bufferExpiry : OutputEvent s (bufferExpiry s) := by
  simp only [bufferExpiry]
  split
  · exact events_powered (outputs_quiet rfl) rfl
  · exact .refl s

theorem events_overExpiry : OutputEvent s (overExpiry s) := by
  simp only [overExpiry]
  split
  · exact events_powered (outputs_quiet rfl) rfl
  · exact .refl s

theorem events_underExpiry : OutputEvent s (underExpiry s) := by
  simp only [underExpiry]
  split
  · exact events_powered (outputs_quiet rfl) rfl
  · exact .refl s

/-! ### The conversions (R119) -/

theorem events_codeDelivered (c : Conversion) (code : Nat) : OutputEvent s (codeDelivered s c code) := by
  simp only [codeDelivered]
  split
  · exact events_quiet (by simp [eventView, outputView])
  · exact events_quiet (by simp [eventView, outputView])
  · exact events_apart (.single (.measured code)) (by simp) (by simp)
  · exact events_powerReading s _ _ code
  · exact events_powerReading s _ _ code

theorem events_conversionDone (code : BitVec 12) : OutputEvent s (conversionDone s code) := by
  cases runs : s.msq.converting with
  | none => rw [conversionDone_idle code runs]; exact .refl s
  | some c =>
    cases void : c.void
    case true => rw [conversionDone_void code runs void]; exact events_quiet rfl
    case false =>
      rw [conversionDone_read code runs void]
      have reported : OutputEvent s (conversionReported s c code) := by
        refine events_quiet ?_
        simp only [conversionReported, gapReported, senseRead]
        (repeat' split) <;> simp [eventView, outputView]
      exact reported.trans ((events_codeDelivered _ c _).trans (events_quiet rfl))

/-! ### The frames and the tables (R20, R25 to R36, R45, R51) -/

theorem events_fnuSettle : OutputEvent s (fnuSettle s) := events_apart (outputs_fnuSettle s) (by simp) (by simp)

theorem events_ownerHeard : OutputEvent s (ownerHeard s) := by
  simp only [ownerHeard, signalCleared]
  split
  · exact (events_quiet (by simp [eventView, outputView])).trans (events_fnuSettle _)
  · exact events_quiet (by simp [eventView, outputView])

theorem events_dispatch (row : Frame → Bool) {hand : State → Frame → Via → State}
    (handed : ∀ u f via, OutputEvent u (hand u f via)) : OutputEvent s (dispatch row hand s) := by
  have taken (f : Frame) (rest : List Frame) : OutputEvent s (frameTaken s f rest) :=
    events_quiet (by simp [eventView, outputView])
  rcases dispatch_cases row hand s with eq | ⟨f, rest, eq | ⟨via, eq⟩⟩ <;> rw [eq]
  · exact .refl s
  · exact taken f rest
  · exact (taken f rest).trans (handed _ f via)

/-- A demand on TRC moves no output. -/
theorem events_driveCommand (step : Nat) (d : Dir) : OutputEvent s (driveCommand s step d) :=
  events_quiet (by simp [eventView, outputView])

variable (f : Frame) (via : Via)

theorem events_handDrive : OutputEvent s (handDrive s f via) := by
  simp only [handDrive]
  split
  · exact (events_ownerHeard s).trans (events_driveCommand _ _ _)
  · exact .refl s

theorem events_handHaltNormal : OutputEvent s (handHaltNormal s f via) := by
  simp only [handHaltNormal, haltStated]
  split
  · exact (events_ownerHeard s).trans (events_driveCommand _ _ _)
  · exact .refl s

theorem events_handHaltEmergency : OutputEvent s (handHaltEmergency s f via) := by
  have halts (u : State) : OutputEvent u (emergencyHalt u) := events_quiet (by simp [eventView, outputView])
  simp only [handHaltEmergency]
  split
  · exact (events_ownerHeard s).trans (halts _)
  · exact halts s

theorem events_handFunc : OutputEvent s (handFunc s f via) := by
  cases via <;> simp only [handFunc]
  · exact .refl s
  · exact events_apart (outputs_functionsHanded s _ _ _ _) (by simp) (by simp)

theorem events_lossExpiry : OutputEvent s (lossExpiry s) := by
  have stopped : OutputEvent s (signalSet (s.setDsp { s.dsp with lossTimer := none })) := by
    simp only [signalSet]
    split <;> exact events_quiet rfl
  simp only [lossExpiry]
  split
  · split
    · exact stopped.trans (events_quiet (by simp [eventView, outputView]))
    · exact stopped
  · exact .refl s

theorem events_addressInstalled (old : AddressEntry) : OutputEvent s (addressInstalled s old) := by
  simp only [addressInstalled]
  (repeat' split)
  · exact events_quiet rfl
  · exact events_quiet (by simp [eventView, outputView])
  · exact .refl s

theorem events_activePut {t : TableId} (other : t ≠ .cues ∧ t ≠ .lamps) (b : List Byte) : OutputEvent s (activePut s t b) := by
  obtain ⟨cues, lamps⟩ := other
  cases t
  case cues => exact absurd rfl cues
  case lamps => exact absurd rfl lamps
  all_goals exact events_quiet rfl

theorem events_retarget : OutputEvent s (retarget s) := events_quiet (by simp [eventView, outputView])

theorem events_mapInstalled (oldMap : List Byte) : OutputEvent s (mapInstalled s oldMap) :=
  events_apart (outputs_mapInstalled s oldMap) (by simp) (by simp)

/-- A committed table newly in force and its owner's act on it. -/
theorem events_tableInstalled {t : TableId} {b : List Byte} (size : b.length ≤ tableSize t) (valid : commitOffence t b = none) :
    OutputEvent s (tableInstalled s t (commitContent t b)) := by
  cases t <;> simp only [tableInstalled, ownerInstalls]
  case settings => exact (events_activePut s (by decide) _).trans (events_settingsInstalled _)
  case address => exact (events_activePut s (by decide) _).trans (events_addressInstalled _ _)
  case speed => exact (events_activePut s (by decide) _).trans (events_retarget _)
  case map => exact (events_activePut s (by decide) _).trans (events_mapInstalled _ _)
  case cues => exact events_apart (.single (.cuesPut b)) (by simp) (by simp)
  case lamps => exact events_apart (.single (.lampsPut size valid)) (by simp) (by simp)

theorem events_handCommit : OutputEvent s (handCommit s f via) := by
  have replied (u : State) (a : Answer) : OutputEvent u (answered s u 8 a) := events_quiet rfl
  refine OutputEvent.trans ?_ (replied _ _)
  rcases cfgCommit_cases s with eq | ⟨t, -, valid, eq⟩ <;> rw [eq]
  · exact .refl s
  · have begun (u : State) : OutputEvent u (writeBegun u t) := events_quiet rfl
    exact (events_tableInstalled s (List.length_take_le _ _) valid).trans (begun _)

/-! ### The requests that no output but the sample memory sees (R36, R40 to R44, R146, R147) -/

theorem events_handStatus : OutputEvent s (handStatus s f via) := by
  have cleared (u : State) : OutputEvent u (clearFaultFlags u) := events_apart (.single .cleared) rfl rfl
  have replied (c : Cli) : OutputEvent s (s.setCli c) := events_quiet rfl
  simp only [handStatus]
  split
  · exact (replied _).trans (cleared _)
  · exact events_quiet rfl

/-- A write of the sample memory begins. -/
theorem events_writing {w : SampleWrite} (fits : writeFits w) (kind : Nat) (a : Answer) :
    OutputEvent s (answered s (setWriteState s w) kind a) :=
  (events_apart (.single (.writing fits)) rfl rfl).trans (events_quiet rfl)

theorem events_handErase : OutputEvent s (handErase s f via) := by
  simp only [handErase]
  split
  next accepted => exact events_writing s (eraseAnswer_fits accepted) 10 _
  next => exact events_quiet rfl

theorem events_handProgram : OutputEvent s (handProgram s f via) := by
  simp only [handProgram]
  split
  next accepted => exact events_writing s (writeAnswer_fits accepted) 11 _
  next => exact events_quiet rfl

theorem events_nvCompleted : OutputEvent s (nvCompleted s) := by
  simp only [nvCompleted]
  split
  · exact .refl s
  · exact events_quiet rfl

theorem events_restoreDone : OutputEvent s (restoreDone s) := by
  simp only [restoreDone]
  split
  · exact events_quiet (by simp [eventView, outputView, published])
  · exact .refl s
  · exact .refl s

/-- A request that leaves the active copies alone, and its reply. -/
theorem events_request {b : Tbs} (active : b.active = s.tbs.active) (old : State) (kind : Nat) (a : Answer) :
    OutputEvent s (answered old (s.setTbs b) kind a) :=
  events_quiet (by simp [eventView, outputView, answered, offerReply, active])

end

/-! ### The events of CAM, and the resets (R133 to R141, R191) -/

section
variable (s : State)

/-- A chuff event reaches SND and SMK. -/
theorem outputs_chuffEmitted : OutputReaches s (chuffEmitted s) := by
  simp only [chuffEmitted]
  exact outputs_after (u := s.setCam _) (.single (.chuffed _)) rfl

theorem outputView_tickDecided : outputView (tickDecided s) = outputView s := by
  simp [outputView]

theorem outputs_camTick : OutputReaches s (camTick s) := by
  have advanced (u : State) : OutputReaches u (virtualStep u) := by
    simp only [virtualStep]
    split
    · exact outputs_after (outputs_chuffEmitted _) rfl
    · exact outputs_quiet rfl
  simp only [camTick]
  split
  · exact outputs_quiet (by simp [outputView])
  · exact outputs_after (advanced _) (outputView_tickDecided s)

theorem outputs_camEdge (now : Nat) : OutputReaches s (camEdge s now) := by
  have read : OutputReaches s (camReads s now) := outputs_quiet (by simp [outputView])
  have accepted (u : State) : OutputReaches u (edgeAccepted u now) := by
    have decided : outputView (sourceDecided (u.setCam (edgeCounted u.cam (edgeKind u now) now))) = outputView u := by
      simp [outputView]
    simp only [edgeAccepted]
    split
    · exact outputs_after (outputs_chuffEmitted _) decided
    · exact outputs_quiet decided
  simp only [camEdge]
  split
  · exact read
  · split
    · exact read
    · exact read.trans (accepted _)

end

/-- The outputs as a reset or its release leaves them; the memory is cut short, but well formed. -/
structure OutputReset (s t : State) : Prop where
  cam : t.cam = camReset
  snd : t.snd = sndReset
  smk : t.smk = smkReset
  lmp : t.lmp = lmpReset
  dcap : t.trc.dcap = 0
  published : published t.ppm = (.init, 0, 0, 0)
  samples : SampleSound s → memoryWf t.samples = true

theorem OutputReset.after {s u t : State} (h : OutputReset u t) (same : outputView u = outputView s) : OutputReset s t :=
  { h with samples := fun sound => h.samples (sampleSound_op (.quiet same) sound) }

theorem outputReset_resetTaken (s : State) (written : Nat) (phase : Phase) : OutputReset s (resetTaken s written phase) where
  cam := rfl
  snd := rfl
  smk := rfl
  lmp := rfl
  dcap := rfl
  published := rfl
  samples := fun h => (resetTaken_samples s written phase).symm ▸ h.interrupted

theorem outputReset_released (s : State) (kind : ResetKind) : OutputReset s (released s kind) := by
  have eq := released_eq s kind
  dsimp only at eq
  refine ⟨?_, ?_, ?_, ?_, ?_, ?_, fun ⟨wf, _⟩ => ?_⟩ <;> rw [eq]
  · rfl
  · rfl
  · exact wf

/-! ### Every command -/

/-- What a command does to the outputs and CAM: an event, a cam tick, an edge on CAM_IN, or a reset. -/
inductive OutputCommand (s t : State) : Prop
  | event (h : OutputEvent s t)
  | ticked (h : t = camTick s)
  | edge (now : Nat) (h : t = camEdge s now)
  | reset (h : OutputReset s t)

section
variable {i : Instr} {f : State → State} {s t : State}

theorem events_live (ht : live f s = .next t) (h : OutputEvent s (f s)) : OutputEvent s t := by
  rcases live_cases ht with rfl | ⟨-, rfl⟩
  · exact .refl _
  · exact h

theorem events_settled (ht : settled f s = .next t) (h : OutputEvent s (f s)) : OutputEvent s t := by
  rcases settled_cases ht with rfl | ⟨-, rfl⟩
  · exact .refl _
  · exact h.trans (events_fnuSettle _)

/-- A command of the running part that is not settled: an event, a tick, an edge, or nothing. -/
theorem commands_live (ht : live f s = .next t) (h : OutputCommand s (f s)) : OutputCommand s t := by
  rcases live_cases ht with rfl | ⟨-, rfl⟩
  · exact .event (.refl _)
  · exact h

theorem commands_handReset {row : Frame → Bool} {phase : Phase} (ht : live (dispatch row (handReset phase)) s = .next t) :
    OutputCommand s t := by
  have taken (f : Frame) (rest : List Frame) : OutputEvent s (frameTaken s f rest) :=
    events_quiet (by simp [eventView, outputView])
  refine commands_live ht ?_
  rcases dispatch_cases row (handReset phase) s with eq | ⟨f, rest, eq | ⟨via, eq⟩⟩ <;> rw [eq]
  · exact .event (.refl s)
  · exact .event (taken f rest)
  · simp only [handReset]
    split
    · exact .reset ((outputReset_resetTaken _ 0 phase).after (by simp [outputView]))
    · exact .event ((taken f rest).trans (events_quiet rfl))

/-- A cam tick of a given kind, or nothing. -/
theorem commands_tickIf (kind : Bool) : OutputCommand s (if kind then camTick s else s) := by
  split
  · exact .ticked rfl
  · exact .event (.refl s)

/-- Every command is an event, a tick or an edge at CAM, or a reset. -/
theorem exec_outputs (ht : exec i s = .next t) : OutputCommand s t := by
  cases i
  case drive => exact .event (events_settled ht (events_dispatch s _ events_handDrive))
  case haltNormal => exact .event (events_settled ht (events_dispatch s _ events_handHaltNormal))
  case haltEmergency => exact .event (events_settled ht (events_dispatch s _ events_handHaltEmergency))
  case func => exact .event (events_settled ht (events_dispatch s _ events_handFunc))
  case cfgCommit => exact .event (events_settled ht (events_dispatch s _ events_handCommit))
  case replyFrameTaken => exact .event (events_live ht (events_dispatch s _ fun u _ _ => .refl u))
  case cfgOpen => exact .event (events_live ht (events_dispatch s _ fun u _ _ => events_request u (cfgOpen_active _ _) u 4 _))
  case cfgPoint => exact .event (events_live ht (events_dispatch s _ fun u _ _ => events_request u (cfgPoint_active _ _) u 6 _))
  case cfgWrite => exact .event (events_live ht (events_dispatch s _ fun u _ _ => events_request u (cfgWrite_active _ _) u 5 _))
  case cfgClose => exact .event (events_live ht (events_dispatch s _ fun u _ _ => events_request u (cfgClose_active _) u 9 _))
  case cfgRead => exact .event (events_live ht (events_dispatch s _ fun u _ _ => events_request u (b := u.tbs) rfl u 7 _))
  case statusReq => exact .event (events_live ht (events_dispatch s _ events_handStatus))
  case sampleErase => exact .event (events_live ht (events_dispatch s _ events_handErase))
  case sampleWrite => exact .event (events_live ht (events_dispatch s _ events_handProgram))
  case resetNormal | resetFactory => exact commands_handReset ht
  case factoryRestoreComplete =>
    cases ht
    exact .event (events_restoreDone s)
  case powerOnReset | brownoutReset =>
    cases ht
    exact .reset (outputReset_resetTaken s _ _)
  case resetRelease =>
    cases ht
    simp only [resetReleased]
    split
    · exact .reset (outputReset_released s _)
    · exact .event (.refl s)
    · exact .event (.refl s)
  case commandLossTimerExpiry => exact .event (events_settled ht (events_lossExpiry s))
  case rampTick | stallTimerExpiry | overcurrentTrip | retryTimerExpiry =>
    exact .event (events_settled ht (events_quiet (by simp [eventView, outputView])))
  case conversionComplete => exact .event (events_settled ht (events_conversionDone s _))
  case qualificationTimerExpiry => exact .event (events_settled ht (events_qualificationExpiry s _))
  case coastTimerExpiry => exact .event (events_settled ht (events_coastExpiry s))
  case bufferRequestTimerExpiry => exact .event (events_settled ht (events_bufferExpiry s))
  case overTimerExpiry => exact .event (events_settled ht (events_overExpiry s))
  case underTimerExpiry => exact .event (events_settled ht (events_underExpiry s))
  case presenceGained v =>
    refine .event (OutputEvent.trans ?_ (events_settled ht (events_presenceEvent _ _ _)))
    split
    · exact events_setSupply s _ _
    · exact .refl s
  case presenceLost v =>
    refine .event (OutputEvent.trans ?_ (events_settled ht (events_presenceEvent _ _ _)))
    split
    · exact .refl s
    · exact events_setSupply s _ _
  case nvWriteComplete => exact .event (events_live ht (events_nvCompleted s))
  case camTick => exact commands_live ht (.ticked rfl)
  case silenceWatchElapsed => exact commands_live ht (commands_tickIf (tickElapses s))
  case virtualChuff => exact commands_live ht (commands_tickIf (tickChuffs s))
  case camEdge offset => exact commands_live ht (.edge _ rfl)
  case eraseComplete => exact .event (events_live ht (events_apart (.single .erased) (by simp) (by simp)))
  case programComplete => exact .event (events_live ht (events_apart (.single .programmed) (by simp) (by simp)))
  case outputSample => exact .event (events_live ht (events_apart (.single (.sampled _)) (by simp) (by simp)))
  case smokeRequestTimerExpiry => exact .event (events_live ht (events_apart (.single .requested) (by simp) (by simp)))
  case ageTimerExpiry => exact .event (events_live ht (events_apart (.single .staled) (by simp) (by simp)))
  case puffTimerExpiry => exact .event (events_live ht (events_apart (.single .puffEnded) (by simp) (by simp)))
  case flickerAdvance => exact .event (events_live ht (events_apart (.single .flickered) (by simp) (by simp)))
  case blinkTimerExpiry => exact .event (events_live ht (events_apart (.single (.blinked _)) (by simp) (by simp)))
  case softTimerExpiry => exact .event (events_live ht (events_apart (.single (.softened _)) (by simp) (by simp)))
  case characterReceived | brokenCharacter | interByteTimerExpiry | replyFrameSent | relayFrameSent | bemfTimerExpiry | pwmPeriodEnd
      | settleTimerExpiry | tripFreeTimerExpiry | scanTimerExpiry =>
    exact .event (events_live ht (events_quiet (by simp [eventView, outputView])))

end

end Sys2Proof.Laws
end

section
/-!
PROOFS. Every step keeps the laws of the cam, the sound engine, the sample memory, the smoke unit and the lamps (R136, R139, R145,
R152, R159, R167 to R172, R175, R179, R189).
-/
namespace Sys2Proof.Laws

open Sys2Proof.Machine

/-! ### The laws through a command -/

section
variable {s t : State}

/-- A command but a reset does to the outputs what the operations do. -/
theorem OutputCommand.reaches_or_reset (h : OutputCommand s t) : OutputReaches s t ∨ OutputReset s t := by
  cases h with
  | event h => exact .inl h.reaches
  | ticked h => exact .inl (h ▸ outputs_camTick s)
  | edge now h => exact .inl (h ▸ outputs_camEdge s now)
  | reset h => exact .inr h

/-- A law that each operation keeps, and that holds after a reset, is kept by every command. -/
theorem OutputCommand.keeps {P : State → Prop} (command : OutputCommand s t) (op : ∀ {u v}, OutputOp u v → P u → P v)
    (reset : OutputReset s t → P t) (h : P s) : P t := by
  rcases command.reaches_or_reset with reaches | taken
  · exact outputs_keep op reaches h
  · exact reset taken

theorem OutputCommand.earned (command : OutputCommand s t) (h : CapsEarned s.ppm) : CapsEarned t.ppm := by
  cases command with
  | event event => exact event.earned h
  | ticked eq => simpa [eq] using h
  | edge now eq => simpa [eq] using h
  | reset reset =>
    have published := reset.published
    simp only [Laws.published, Prod.mk.injEq] at published
    obtain ⟨-, dcap, hmax, -⟩ := published
    simp [CapsEarned, dcap, hmax]

theorem OutputCommand.camSafe (command : OutputCommand s t) (cpr : s.cpr ≤ 8) (range : s.trc.ramp ≤ 65472) (h : CamSafe s) :
    CamSafe t := by
  cases command with
  | event event => rwa [CamSafe, event.cam]
  | ticked eq => exact eq ▸ camTick_safe cpr range h
  | edge now eq => exact eq ▸ camEdge_safe cpr h now
  | reset reset =>
    rw [CamSafe, reset.cam]
    exact ⟨by decide, by decide, nofun, by decide, nofun⟩

/-! ### The reset values keep the laws -/

theorem OutputReset.poolSound (h : OutputReset s t) : PoolSound t := by
  rw [PoolSound, h.snd]
  exact ⟨by decide, by decide, rfl, nofun⟩

theorem OutputReset.engineSound (h : OutputReset s t) : EngineSound t := by
  rw [EngineSound, h.snd]
  exact ⟨rfl, fun _ => ⟨rfl, rfl, rfl, rfl⟩⟩

theorem OutputReset.smokeLaw (h : OutputReset s t) : SmokeLaw t.smk :=
  h.smk ▸ .of_rest (.inl ⟨rfl, rfl⟩) rfl rfl rfl

theorem OutputReset.heldLaw (h : OutputReset s t) : HeldLaw t where
  copies := by
    have published := h.published
    simp only [Laws.published, Prod.mk.injEq] at published
    obtain ⟨power, dcap, hmax, cap⟩ := published
    rw [capCopies, capsPublished, power, dcap, hmax, cap, h.snd, h.smk, h.lmp, h.dcap]
    rfl
  heater := h.smk ▸ .cold rfl

theorem OutputReset.lampsLaw (h : OutputReset s t) : LampsLaw t.lmp := by
  have dark {o : Lamp} (ho : o ∈ lmpReset.outputs) : o = lampReset := List.eq_of_mem_replicate ho
  rw [h.lmp]
  exact ⟨rfl, fun o ho => dark ho ▸ ⟨Nat.zero_le _, Nat.zero_le _, fun _ => ⟨rfl, rfl, rfl⟩⟩⟩

/-! ### Every step -/

/-- A step carries out the front command on the rest of the queue; on an empty queue FNU takes what waits. -/
theorem step_outputs (ht : step s = .next t) : ∃ rest, OutputCommand (s.setPending rest) t := by
  cases pending : s.pending with
  | nil =>
    simp only [step, pending] at ht
    cases ht
    have popped : OutputEvent (s.setPending []) s := events_quiet rfl
    exact ⟨[], .event (popped.trans (events_fnuSettle s))⟩
  | cons c rest =>
    simp only [step, pending] at ht
    exact ⟨rest, exec_outputs ht⟩

end

/-- Settles O57: a step does to the outputs what their operations do, moves the cam by a tick or an edge, or is a reset; each law is
kept by each of these. -/
theorem outputsStaySound : Obligations.OutputsStaySound := by
  intro s t ht
  obtain ⟨rest, command⟩ := step_outputs ht
  refine ⟨fun active range cam => ?_, fun pool => ?_, fun engine => ?_, fun samples => ?_, fun smoke => ?_,
    fun heater caps => ?_, fun active lamps => ?_⟩
  · obtain ⟨-, ramp⟩ := range
    exact command.camSafe (ActiveSafe.cpr_le active) ramp cam
  · exact (poolSafe_iff t).mpr (command.keeps poolSound_op OutputReset.poolSound ((poolSafe_iff s).mp pool))
  · exact (engineSafe_iff t).mpr (command.keeps engineSound_op OutputReset.engineSound ((engineSafe_iff s).mp engine))
  · have sound := (sampleSafe_iff s).mp samples
    refine (sampleSafe_iff t).mpr (command.keeps sampleSound_op (fun reset => ⟨reset.samples sound, ?_⟩) sound)
    rw [reset.snd]
    trivial
  · exact (smokeSafe_iff t).mpr (command.keeps smokeLaw_op OutputReset.smokeLaw ((smokeSafe_iff s).mp smoke))
  · obtain ⟨held, earned⟩ := (heaterSafe_capsSafe_iff s).mp ⟨heater, caps⟩
    have law := command.keeps heldLaw_op OutputReset.heldLaw ⟨held.copies, held.heater⟩
    exact (heaterSafe_capsSafe_iff t).mpr ⟨law, command.earned earned⟩
  · refine (lampSafe_iff t).mpr ?_
    rcases command.reaches_or_reset with reaches | reset
    · have law : LampLaw t := outputs_keep lampLaw_op reaches ⟨ActiveSafe.lampTable active, (lampSafe_iff s).mp lamps⟩
      exact law.outputs
    · exact reset.lampsLaw

end Sys2Proof.Laws
end
